-- ==== Sys2Proof/Word.lean ====
section
/-! DEFINITION. The words, levels and line names of the block: the values every other file is written in. -/

namespace Sys2Proof

/-- A block register or a command word: `REG_WIDTH` = 32 bits (file 00 R9, file 10 R27). -/
abbrev Word := BitVec 32

/-- A frame, and ACC: `FRAME_BITS` = 8 bits (R9, file 10 R31). -/
abbrev Byte := BitVec 8

/-- A level is one bit: `false` is 0, low, and `true` is 1, high (file 00 R12). -/
abbrev Level := Bool

/-- The block's four lines (file 00 R13). -/
inductive Line where
  | data
  | clk
  | irq
  | rst
  deriving DecidableEq, Repr, Inhabited

/-- A direction: `inp` is the source's input (high-impedance) mode, IN; `out` is OUT (file 00 R12). -/
inductive Dir where
  | inp
  | out
  deriving DecidableEq, Repr, Inhabited

/-- One value for each of the four lines (the line state file and `ext` of file 10 R22, R24, and PinSet). -/
structure PerLine (α : Type) where
  data : α
  clk  : α
  irq  : α
  rst  : α
  deriving DecidableEq, Repr, Inhabited

end Sys2Proof
end

