-- ==== Sys2Proof/Config.lean ====
section
/-! DEFINITION. The parameters of the block and of the host-side consumer, the steps the outside world can take, and
the FREE VALUES: opaque constants without a body, which no proof can evaluate. -/

namespace Sys2Proof

/-- The block's parameters (file 00 R9). Times are in nanoseconds (log entry 3). -/
structure Params where
  /-- The platform pin identifier of each line, `PIN[L]`: OPEN. -/
  pin     : PerLine Nat
  /-- The base address of the register window, `BASE`: OPEN. -/
  base    : Nat
  /-- `T_SETTLE`, the minimum settle time; default 25 microseconds. -/
  tSettle : Nat := 25000
  /-- `T_RST`, the minimum hold time of each reset-pulse level; default 25 milliseconds. -/
  tRst    : Nat := 25000000
  deriving DecidableEq, Repr, Inhabited

/-- The parameters of the host-side frame consumer (file 45 R180). Keycodes are integers. -/
structure ConsumerParams where
  rows       : Nat
  cols       : Nat
  keymap     : List Int
  keyUnknown : Int
  deriving DecidableEq, Repr, Inhabited

/-- One host access of `n` bytes at address `a` (file 00 R14, file 20 R61). A written value is given as a word: no
value of another width is ever used (log entry 17). -/
inductive Access where
  | read  (a n : Nat)
  | write (a n : Nat) (v : Word)
  deriving DecidableEq, Repr, Inhabited

/-- One operation of the host's program. -/
inductive HostOp where
  /-- A register access; the pseudo-instructions `issue` and `rd` expand to one (file 30 R87). -/
  | access (x : Access)
  /-- `wait_idle`: read STATUS until BUSY = 0 (R87). -/
  | waitIdle
  /-- The consumer's decode task (file 70 R237, file 45 R189), one step of it at a time: where it has got to is the
  engine's state, so no other operation is any part of a decode. -/
  | decodeTask
  deriving DecidableEq, Repr, Inhabited

/-- One turn of one agent (file 00 R15), or one change of the block's reset input. -/
inductive Turn where
  /-- HOST performs its next operation. -/
  | host
  /-- The host's interrupt entry point looks at `irq_out` (file 60 R207, file 70 R237): no access. -/
  | irqEntry
  /-- SEQ performs its next action or its finish, if one is enabled (file 40 R102, R103). -/
  | seq
  /-- The wait in progress ends, if its lower bound has passed (file 10 R30). -/
  | waitEnd
  /-- CLOCK lets `dt` nanoseconds pass. -/
  | clock (dt : Nat)
  /-- ENV sets `ext[L]` (file 10 R24). -/
  | env (l : Line) (v : Level)
  /-- `rst_n` takes a level: low asserts the block reset, high releases it (file 70 R230). -/
  | rstN (v : Level)
  deriving DecidableEq, Repr, Inhabited

/-- FREE VALUE: whose turn comes when the agenda is used up, by draw number (file 93 U6; log entry 1); not assumed fair
(log entry 19). -/
opaque Config.freeTurn : Nat → Turn

/-- FREE VALUE: what the host does when its program is used up, by draw number (file 00 R15; log entry 2). -/
opaque Config.freeHostOp : Nat → HostOp

/-- FREE VALUE: the levels on the lines at power-up (file 10 R24, file 93 U1; log entry 6). -/
opaque Config.powerUpExt : PerLine Level

/-- FREE VALUE: the consumer's OPEN parameters (file 45 R180, file 93 I6, I7; log entry 15). -/
opaque Config.consumer : ConsumerParams

end Sys2Proof
end

