-- ==== Sys2Proof/Syntax.lean ====
section
/-! DEFINITION. The commands of the block, one constructor per row of spec/opcode_table.json (file 30 R82). -/

namespace Sys2Proof

/-- A command with its operands: LN is a line, LV a level (file 30 R81). A fixed LN or LV is no operand. -/
inductive Instr where
  /-- NOP, OP 0 (file 40 R106). -/
  | nop
  /-- CFG_OUT line, level, OP 1 (R107). -/
  | cfgOut (ln : Line) (lv : Level)
  /-- CFG_IN line, OP 2 (R108). -/
  | cfgIn (ln : Line)
  /-- SET line, level, OP 3 (R109). -/
  | set (ln : Line) (lv : Level)
  /-- READ line, OP 4 (R111). -/
  | read (ln : Line)
  /-- LATCH line, level, OP 5 (R110). -/
  | latch (ln : Line) (lv : Level)
  /-- PULL_FRAME, OP 6 (file 41 R130). -/
  | pullFrame
  /-- RESET_PULSE, OP 7 with LN = 3 (file 42 R160). -/
  | resetPulse
  /-- TAKE, OP 8 (R166). -/
  | take
  /-- EDGE_EN level, OP 9 (R168). -/
  | edgeEn (lv : Level)
  deriving DecidableEq, Repr, Inhabited

end Sys2Proof
end

