-- ==== Sys2Proof/Machine/State.lean ====
section
/-! DEFINITION. The state of the machine as plain data (file 10), the reasons it can stop, and reset (R39). -/

namespace Sys2Proof.Machine

/-- One entry of the line state file: direction and level latch (file 10 R22). -/
structure LineState where
  dir : Dir
  lat : Level
  deriving DecidableEq, Repr, Inhabited

/-- The action of a micro-step (file 10 R29, file 40 R104). -/
inductive Action where
  | cfgOut (l : Line) (v : Level)
  | cfgIn (l : Line)
  | drive (l : Line) (v : Level)
  | sample (b : Fin 8)
  deriving DecidableEq, Repr, Inhabited

/-- The wait kinds NONE, SETTLE and RST (file 10 R29). -/
inductive WaitKind where
  | none
  | settle
  | rst
  deriving DecidableEq, Repr, Inhabited

/-- A micro-step: an action and the wait that follows it (file 10 R29). -/
structure MicroStep where
  action : Action
  wait   : WaitKind
  deriving DecidableEq, Repr, Inhabited

/-- SEQ's state (file 10 R29); `cmd` is the accepted command, which the finish consults (file 40 R103; log entry 8). -/
structure Sequencer where
  busy  : Bool
  cmd   : Instr
  list  : List MicroStep
  k     : Nat
  wait  : WaitKind
  since : Nat
  deriving DecidableEq, Repr, Inhabited

/-- What a decode does next, once it has claimed the request (file 70 R237, file 45 R189). -/
inductive DecodeStage where
  /-- Issue PULL_FRAME. -/
  | pull
  /-- Read STATUS until BUSY = 0. -/
  | wait
  /-- Read RESULT. -/
  | read
  /-- Dispatch the frame read. -/
  | dispatch (v : Byte)
  deriving DecidableEq, Repr, Inhabited

/-- The consumer's engine (file 45 R189): Idle, waiting for an interrupt, or Decoding, from the TAKE that starts a
decode to the dispatch that ends it. While a decode task is only scheduled the engine is Idle (log entry 14). -/
inductive Engine where
  | idle
  | decoding (next : DecodeStage)
  deriving DecidableEq, Repr, Inhabited

/-- The calls the consumer makes to the input-event sink (file 45 R186). -/
inductive SinkCall where
  | reportKey (keycode : Int) (pressed : Bool)
  | sync
  deriving DecidableEq, Repr, Inhabited

/-- The host, outside the block: its remaining program, the value its last MemRead returned, and its frame consumer
(file 30 R87, file 10 R37, file 45; log entries 2, 9, 14, 15). -/
structure HostSide where
  program  : List HostOp
  data     : Word
  engine   : Engine
  sink     : List SinkCall
  consumer : ConsumerParams
  deriving DecidableEq, Repr, Inhabited

/-- The whole machine: the block (file 10), its environment, its parameters, the host, and the model's own schedule. -/
structure State where
  /-- The line state file (R22). -/
  lines    : PerLine LineState
  /-- The levels the environment presents (R24). -/
  ext      : PerLine Level
  /-- RESULT (R28). -/
  result   : Word
  /-- SEQ (R29). -/
  seq      : Sequencer
  /-- ACC (R31). -/
  acc      : Byte
  /-- `edge.en` (R32). -/
  edgeEn   : Bool
  /-- `edge.prev` (R32). -/
  edgePrev : Level
  /-- PEND (R33). -/
  pend     : Bool
  /-- FAULT (R34, file 60 R202). -/
  fault    : Bool
  /-- FCAUSE (R34, file 60 R200). -/
  fcause   : BitVec 4
  /-- The level on the reset input `rst_n`: low (false) asserts the block reset (R37, file 70 R230). -/
  rstN     : Level
  /-- The time CLOCK keeps, in nanoseconds (file 00 R15; log entry 3). -/
  now      : Nat
  /-- The block's parameters, which no step changes (file 10 R38; log entry 5). -/
  params   : Params
  /-- The host. -/
  host     : HostSide
  /-- The turns still to come, soonest first (file 00 R15; log entry 1). -/
  agenda   : List Turn
  /-- The number of free values drawn so far (log entry 1). -/
  draws    : Nat
  deriving DecidableEq, Repr, Inhabited

/-- Why the machine stops. No command ends in one of these. -/
inductive Fault where
  /-- Raised by a host access at an address outside BASE to BASE + 0xF, which does not belong to the block (file 20
  R60, R61). Safe: the machine stops where the spec describes nothing (log entry 10). -/
  | outsideWindow
  deriving DecidableEq, Repr

/-- Why the machine gives no step. -/
inductive Refusal where
  /-- Raised by an arm of `exec` for a command without a meaning. Safe. No arm is left that raises it. -/
  | notModelled (mnemonic : String)
  /-- Raised by `step` on a block whose pin identifiers are not distinct and non-zero: "The model refuses it and gives
  it no step" (file 00 R10). Safe (log entry 11). -/
  | badPinSet
  deriving DecidableEq, Repr

/-- The outcome of a step or of a command. -/
abbrev Outcome := Host.Outcome State Fault Refusal

/-- SEQ after a block reset (R39; `list`, `k`, `wait`, `since` and `cmd` are DESIGN CHOICE, log entries 7 and 8). -/
def Sequencer.reset : Sequencer :=
  { busy := false, cmd := .nop, list := [], k := 0, wait := .none, since := 0 }

/-- The line state file after a block reset: every line IN with latch 0 (R39). -/
def linesReset : PerLine LineState :=
  { data := ⟨.inp, false⟩, clk := ⟨.inp, false⟩, irq := ⟨.inp, false⟩, rst := ⟨.inp, false⟩ }

/-- The machine right after reset, for any parameters (R39). -/
def State.resetOf (p : Params) : State :=
  { lines := linesReset, ext := Config.powerUpExt, result := 0#32, seq := Sequencer.reset, acc := 0#8,
    edgeEn := false, edgePrev := false, pend := false, fault := false, fcause := 0#4, rstN := true, now := 0,
    params := p,
    host := { program := [], data := 0#32, engine := .idle, sink := [], consumer := Config.consumer },
    agenda := [], draws := 0 }

/-- Parameters with the spec's default times; BASE and PIN are OPEN in the spec (R9), and the numbers here are DESIGN
CHOICE (log entry 5). -/
def Params.sample : Params :=
  { pin := { data := 1, clk := 2, irq := 3, rst := 4 }, base := 0 }

/-- The machine right after reset. -/
def State.reset : State := State.resetOf Params.sample

end Sys2Proof.Machine
end

