-- ==== Sys2Proof/Machine/Operands.lean ====
section
/-! DEFINITION. The operand forms: a line (LN) with its state, its environment level and its pin, and a level (LV)
as a bit of a register (file 10 R22 to R25, file 30 R81). -/

namespace Sys2Proof

/-- The entry of line `l`. -/
def PerLine.get {α : Type} (x : PerLine α) : Line → α
  | .data => x.data
  | .clk  => x.clk
  | .irq  => x.irq
  | .rst  => x.rst

/-- `x` with the entry of line `l` replaced. -/
def PerLine.put {α : Type} (x : PerLine α) (l : Line) (v : α) : PerLine α :=
  match l with
  | .data => { x with data := v }
  | .clk  => { x with clk := v }
  | .irq  => { x with irq := v }
  | .rst  => { x with rst := v }

end Sys2Proof

namespace Sys2Proof.Machine

/-- `zext_32(level)` (file 00 R11, R12). -/
def levelWord (v : Level) : Word := (BitVec.ofBool v).zeroExtend 32

/-- `line[L]` (file 10 R22). -/
def State.line (s : State) (l : Line) : LineState := s.lines.get l

/-- `line[L].dir = OUT`. -/
def State.isOut (s : State) (l : Line) : Bool := (s.line l).dir == .out

/-- `line[L].dir = IN`. -/
def State.isIn (s : State) (l : Line) : Bool := (s.line l).dir == .inp

/-- The level on a line whose state is `x` when the environment presents `e` (file 10 R25). -/
def pinOf (x : LineState) (e : Level) : Level :=
  match x.dir with
  | .out => x.lat
  | .inp => e

/-- `pin(L)`: the latch when OUT, the environment's level when IN (file 10 R25). -/
def State.pin (s : State) (l : Line) : Level := pinOf (s.line l) (s.ext.get l)

/-- The output enable of a line's pad (file 10 R37). -/
def State.padEnable (s : State) (l : Line) : Bool := s.isOut l

/-- The output value of a line's pad (file 10 R37). -/
def State.padOut (s : State) (l : Line) : Level := (s.line l).lat

/-- The input value of a line's pad (file 10 R37). -/
def State.padIn (s : State) (l : Line) : Level := s.ext.get l

end Sys2Proof.Machine
end

