-- ==== Sys2Proof/Machine/Flags.lean ====
section
/-! DEFINITION. The fault causes and the host-visible views of the state: STATUS, RESULT, LINES, `irq_out`, and the
register window as words and bytes (file 10 R27 to R36, file 20 R65, file 60 R200). -/

namespace Sys2Proof.Machine

/-- The causes a fault can have (file 60 R200). -/
inductive FaultCause where
  | illegal
  | direction
  | busy
  | bus
  deriving DecidableEq, Repr

/-- The code FCAUSE reports for a cause (file 60 R200). -/
def causeCode : FaultCause → BitVec 4
  | .illegal   => 1#4
  | .direction => 2#4
  | .busy      => 3#4
  | .bus       => 4#4

/-- STATUS: zext_32({FCAUSE, FAULT, EDGE_EN, PEND, BUSY}) (file 10 R34). -/
def State.statusWord (s : State) : Word :=
  (s.fcause ++ BitVec.ofBool s.fault ++ BitVec.ofBool s.edgeEn ++ BitVec.ofBool s.pend ++
    BitVec.ofBool s.seq.busy).zeroExtend 32

/-- A line's two bits of LINES: its latch above its direction, 1 for OUT (file 10 R35). -/
def lineBits (x : LineState) : BitVec 2 :=
  BitVec.ofBool x.lat ++ BitVec.ofBool (x.dir == .out)

/-- LINES: bit `2L` is the direction of line L and bit `2L+1` its latch (file 10 R35). -/
def State.linesWord (s : State) : Word :=
  (lineBits s.lines.rst ++ lineBits s.lines.irq ++ lineBits s.lines.clk ++ lineBits s.lines.data).zeroExtend 32

/-- `irq_out = PEND` (file 10 R36). -/
def State.irqOut (s : State) : Level := s.pend

/-- The register at an offset as an admitted read returns it: CMD reads 0 (file 10 R27, file 20 R62, R63). -/
def State.regWord (s : State) (off : Nat) : Word :=
  match off with
  | 4  => s.statusWord
  | 8  => s.result
  | 12 => s.linesWord
  | _  => 0#32

/-- The byte lane at `BASE + off`: byte `i` of a register is its bits `[8i+7:8i]` (file 20 R65). No byte access is
admitted: this is the word's layout only. -/
def State.windowByte (s : State) (off : Nat) : Byte :=
  (s.regWord (off - off % 4)).extractLsb' (8 * (off % 4)) 8

end Sys2Proof.Machine
end

