-- ==== Sys2Proof/Machine/Ops.lean ====
section
/-! DEFINITION. The named operations on the state that the commands, SEQ and the agents share: writing a line,
RESULT, ACC, PEND and the edge detector, recording a fault (the block's one form of taking an exception), accepting a
command, the edge detector, and the block reset. -/

namespace Sys2Proof.Machine

/-- `line[L] <- x` (file 10 R22). -/
def State.setLine (s : State) (l : Line) (x : LineState) : State :=
  { s with lines := s.lines.put l x }

/-- `line[L].lat <- v`, the direction kept. -/
def State.setLatch (s : State) (l : Line) (v : Level) : State :=
  s.setLine l { s.line l with lat := v }

/-- `line[L].dir <- d`, the latch kept (file 10 R22). -/
def State.setDir (s : State) (l : Line) (d : Dir) : State :=
  s.setLine l { s.line l with dir := d }

/-- `ext[L] <- v`, a step of ENV (file 10 R24). -/
def State.setExt (s : State) (l : Line) (v : Level) : State :=
  { s with ext := s.ext.put l v }

/-- `RESULT <- w` (file 10 R28). -/
def State.setResult (s : State) (w : Word) : State :=
  { s with result := w }

/-- `ACC <- b` (file 10 R31). -/
def State.setAcc (s : State) (b : Byte) : State :=
  { s with acc := b }

/-- `PEND <- v` (file 10 R33). -/
def State.setPend (s : State) (v : Bool) : State :=
  { s with pend := v }

/-- `edge.en <- en` and `edge.prev <- prev` (file 10 R32). -/
def State.setEdge (s : State) (en : Bool) (prev : Level) : State :=
  { s with edgeEn := en, edgePrev := prev }

/-- SEQ's state replaced (file 10 R29). -/
def State.setSeq (s : State) (q : Sequencer) : State :=
  { s with seq := q }

/-- The host's state replaced. -/
def State.setHost (s : State) (h : HostSide) : State :=
  { s with host := h }

/-- The host's remaining program replaced (file 30 R87). -/
def State.setProgram (s : State) (ops : List HostOp) : State :=
  s.setHost { s.host with program := ops }

/-- The value a MemRead returns is handed to the host (file 10 R37; log entry 9). -/
def State.setData (s : State) (w : Word) : State :=
  s.setHost { s.host with data := w }

/-- What follows a next state; a stop stays as it is. -/
def onNext (f : State → State) : Outcome → Outcome
  | .next s    => .next (f s)
  | .fault r   => .fault r
  | .refused r => .refused r

/-- `raise Fault(c)`: the first cause is kept, and nothing else changes (file 60 R202, R203). -/
def State.raise (s : State) (c : FaultCause) : State :=
  { s with fault := true, fcause := if s.fault then s.fcause else causeCode c }

/-- `start(list)`: SEQ is busy with the command's micro-steps from the first one (file 40 R101). -/
def State.start (s : State) (cmd : Instr) (list : List MicroStep) : State :=
  s.setSeq { busy := true, cmd := cmd, list := list, k := 0, wait := .none, since := s.seq.since }

/-- Issue of a decoded command: BUSY first, then the direction precondition, then `accept` (file 40 R100, file 60
R204). The ILLEGAL check, between the two, is the decoder's (log entry 18). -/
def issue (precondition : Bool) (accept : State → State) (s : State) : Outcome :=
  if s.seq.busy then .next (s.raise .busy)
  else if precondition then .next (accept s)
  else .next (s.raise .direction)

/-- The edge detector at the end of a step: a fall of `pin(IRQ)` since the previous step's end sets PEND; held off
while `rst_n` is asserted (file 42 R170, file 70 R231). -/
def State.edgeDetect (s : State) : State :=
  if s.rstN && s.edgeEn then
    { s with pend := s.pend || (s.edgePrev && !s.pin .irq), edgePrev := s.pin .irq }
  else s

/-- Block reset: every element of the block takes its value of file 10 R39, whatever SEQ is doing, without the finish
(file 70 R230). `ext`, the time, the parameters, the host and the schedule are no part of the block. -/
def State.blockReset (s : State) : State :=
  { s with
    lines := linesReset, seq := Sequencer.reset, acc := 0#8, result := 0#32, edgeEn := false, edgePrev := false,
    pend := false, fault := false, fcause := 0#4 }

end Sys2Proof.Machine
end

