-- ==== Sys2Proof/Machine/Sequencer.lean ====
section
/-! DEFINITION. SEQ: the four actions (file 40 R104), the micro-step lists of the multi-step commands, the action step
(R102), the finish step (R103), and waits (file 10 R30). -/

namespace Sys2Proof.Machine

/-! ### Actions -/

/-- ACC after a sample into bit `b`: a sampled 1 sets the bit, a sampled 0 leaves it (file 40 R104, file 41 R135). -/
def sampleInto (acc : Byte) (b : Fin 8) (v : Level) : Byte :=
  if v then acc ||| (1#8 <<< b.val) else acc

/-- `perform(a)` (file 40 R104). -/
def State.perform (s : State) : Action → State
  | .cfgOut l v => s.setLine l ⟨.out, v⟩
  | .cfgIn l    => s.setDir l .inp
  | .drive l v  => s.setLatch l v
  | .sample b   => s.setAcc (sampleInto s.acc b (s.pin .data))

/-! ### Micro-step lists -/

/-- A transition followed by its settle (file 40 R105). -/
def settled (a : Action) : MicroStep := ⟨a, .settle⟩

/-- Entries 0 to 4 of PULL_LIST: the arm phase and phase 0, start (file 41 R131 to R133). -/
def armAndStart : List MicroStep :=
  [settled (.cfgOut .data false), settled (.cfgOut .clk true),
   settled (.drive .clk false), settled (.cfgIn .data), settled (.drive .clk true)]

/-- The three entries of the data phase that samples into bit `b` (file 41 R131, R134, R135). -/
def dataPhase (b : Fin 8) : List MicroStep :=
  [settled (.drive .clk false), ⟨.sample b, .none⟩, settled (.drive .clk true)]

/-- Entries 29 to 32: phase 9, acknowledge (file 41 R131, R136). -/
def acknowledge : List MicroStep :=
  [settled (.cfgOut .data false), settled (.drive .clk false), settled (.cfgIn .data), settled (.drive .clk true)]

/-- PULL_LIST: 33 micro-steps, the data phases from bit 7 down to bit 0 (file 41 R131, R135). -/
def pullList : List MicroStep :=
  armAndStart ++
  dataPhase 7 ++ dataPhase 6 ++ dataPhase 5 ++ dataPhase 4 ++
  dataPhase 3 ++ dataPhase 2 ++ dataPhase 1 ++ dataPhase 0 ++
  acknowledge

/-- The three drives of RESET_PULSE, each held for at least T_RST (file 42 R160). -/
def resetPulseList : List MicroStep :=
  [⟨.drive .rst true, .rst⟩, ⟨.drive .rst false, .rst⟩, ⟨.drive .rst true, .rst⟩]

/-! ### Waits -/

/-- The least duration of a wait (file 10 R30). -/
def waitDuration (p : Params) : WaitKind → Nat
  | .none   => 0
  | .settle => p.tSettle
  | .rst    => p.tRst

/-- The wait in progress has lasted at least its kind's duration (file 10 R30). -/
def State.waitOver (s : State) : Bool :=
  decide (s.seq.since + waitDuration s.params s.seq.wait ≤ s.now)

/-- The end of the wait in progress, `seq.wait <- NONE`: enabled once its lower bound has passed (file 10 R30, file 00
R15; log entry 3), and never forced (log entry 19). Where none is enabled nothing happens (log entry 4). -/
def State.endWait (s : State) : State :=
  if s.rstN && s.seq.busy && s.seq.wait != .none && s.waitOver then s.setSeq { s.seq with wait := .none } else s

/-! ### SEQ's steps -/

/-- An action step of SEQ or its finish is enabled: busy, and no wait in progress (file 40 R102, R103); none is while
`rst_n` is asserted (file 70 R230). -/
def State.seqReady (s : State) : Bool :=
  s.rstN && s.seq.busy && s.seq.wait == .none

/-- The action step: perform the micro-step's action, advance, and begin its wait (file 40 R102). -/
def State.actionStep (s : State) (m : MicroStep) : State :=
  (s.perform m.action).setSeq { s.seq with k := s.seq.k + 1, wait := m.wait, since := s.now }

/-- The finish step: PULL_FRAME copies ACC to RESULT, and the command is no longer in progress (file 40 R103). -/
def State.finishStep (s : State) : State :=
  (match s.seq.cmd with
    | .pullFrame => s.setResult (s.acc.zeroExtend 32)
    | _ => s).setSeq { s.seq with busy := false }

/-- A turn of SEQ: the action step of micro-step `seq.k`, or the finish after the last; where neither is enabled
nothing happens (file 40 R102, R103; log entry 4). -/
def State.seqTurn (s : State) : State :=
  if s.seqReady then
    match s.seq.list[s.seq.k]? with
    | some m => s.actionStep m
    | none => if s.seq.k == s.seq.list.length then s.finishStep else s
  else s

end Sys2Proof.Machine
end

