-- ==== Sys2Proof/Machine/Control.lean ====
section
/-! DEFINITION. The control commands RESET_PULSE, TAKE and EDGE_EN (file 42 R160, R166, R168). -/

namespace Sys2Proof.Machine

/-- RESET_PULSE: needs RST OUT; three drives of RST, each held for T_RST (R160). -/
def execResetPulse (s : State) : Outcome :=
  issue (s.isOut .rst) (fun s => s.start .resetPulse resetPulseList) s

/-- TAKE: the pending request is claimed, in the issuing step (R166): the block's return from a request (file 60
R207). -/
def execTake (s : State) : Outcome :=
  issue true (fun s => s.setPend false) s

/-- EDGE_EN: detection on or off, in the issuing step; when on, `edge.prev` takes the level already present (R168). -/
def execEdgeEn (lv : Level) (s : State) : Outcome :=
  issue true (fun s => s.setEdge lv (if lv then s.pin .irq else s.edgePrev)) s

end Sys2Proof.Machine
end

