-- ==== Sys2Proof/Machine/FrameCodec.lean ====
section
/-! DEFINITION. PULL_FRAME (file 41 R130). -/

namespace Sys2Proof.Machine

/-- PULL_FRAME: ACC is cleared and SEQ starts PULL_LIST; no direction precondition (R130, file 40 R112). -/
def execPullFrame (s : State) : Outcome :=
  issue true (fun s => (s.setAcc 0#8).start .pullFrame pullList) s

end Sys2Proof.Machine
end

