-- ==== Sys2Proof/Machine/LineDriver.lean ====
section
/-! DEFINITION. The line-driver commands (file 40 R106 to R111): what issuing each of them does. -/

namespace Sys2Proof.Machine

/-- NOP: nothing, in the issuing step (R106). -/
def execNop (s : State) : Outcome :=
  issue true id s

/-- CFG_OUT: one transition to OUT at the level, with its settle (R107). -/
def execCfgOut (ln : Line) (lv : Level) (s : State) : Outcome :=
  issue true (fun s => s.start (.cfgOut ln lv) [settled (.cfgOut ln lv)]) s

/-- CFG_IN: one transition to IN, the latch kept, with its settle (R108). -/
def execCfgIn (ln : Line) (s : State) : Outcome :=
  issue true (fun s => s.start (.cfgIn ln) [settled (.cfgIn ln)]) s

/-- SET: needs the line OUT; one drive of the level, with its settle (R109). -/
def execSet (ln : Line) (lv : Level) (s : State) : Outcome :=
  issue (s.isOut ln) (fun s => s.start (.set ln lv) [settled (.drive ln lv)]) s

/-- READ: needs the line IN; RESULT takes the sampled level in the issuing step (R111). -/
def execRead (ln : Line) (s : State) : Outcome :=
  issue (s.isIn ln) (fun s => s.setResult (levelWord (s.pin ln))) s

/-- LATCH: on an OUT line as SET; on an IN line the latch alone, in the issuing step (R110). -/
def execLatch (ln : Line) (lv : Level) (s : State) : Outcome :=
  issue true (fun s => if s.isOut ln then s.start (.latch ln lv) [settled (.drive ln lv)] else s.setLatch ln lv) s

end Sys2Proof.Machine
end

