-- ==== Sys2Proof/Machine/Dispatch.lean ====
section
/-! DEFINITION. One arm per command: each calls the command's meaning. -/

namespace Sys2Proof.Machine

def exec (i : Instr) (s : State) : Host.Outcome State Fault Refusal :=
  match i with
  | .nop => Sys2Proof.Machine.execNop s
  | .cfgOut ln lv => Sys2Proof.Machine.execCfgOut ln lv s
  | .cfgIn ln => Sys2Proof.Machine.execCfgIn ln s
  | .set ln lv => Sys2Proof.Machine.execSet ln lv s
  | .read ln => Sys2Proof.Machine.execRead ln s
  | .latch ln lv => Sys2Proof.Machine.execLatch ln lv s
  | .pullFrame => Sys2Proof.Machine.execPullFrame s
  | .resetPulse => Sys2Proof.Machine.execResetPulse s
  | .take => Sys2Proof.Machine.execTake s
  | .edgeEn lv => Sys2Proof.Machine.execEdgeEn lv s

end Sys2Proof.Machine
end

