-- ==== Sys2Proof/Decode.lean ====
section
/-! DEFINITION. The command word: fields, the decoder (file 30 R83), the encoder (R81), the opcode map as rows of match
and mask (R82), and the host's view of the decoder. -/

namespace Sys2Proof

/-- Why a word is INVALID (file 30 R84). All are ILLEGAL when issued while idle. -/
inductive Reject where
  /-- A non-zero bit in RES_H, RES_M or RES_L. -/
  | reservedBits
  /-- OP is 10 to 15. -/
  | reservedOpcode
  /-- OP fixes LN or LV to a value the word does not have. -/
  | fixedField
  deriving DecidableEq, Repr

/-! ### Fields (R80) -/

/-- OP, bits 15:12. -/
def fieldOp (w : Word) : BitVec 4 := w.extractLsb' 12 4

/-- LN, bits 9:8. -/
def fieldLn (w : Word) : BitVec 2 := w.extractLsb' 8 2

/-- LV, bit 0. -/
def fieldLv (w : Word) : Level := w.getLsbD 0

/-- RES_H (31:16), RES_M (11:10) and RES_L (7:1) are all 0. -/
def reservedZero (w : Word) : Bool :=
  w.extractLsb' 16 16 == 0#16 && w.extractLsb' 10 2 == 0#2 && w.extractLsb' 1 7 == 0#7

/-- The line a line index names: 0 DATA, 1 CLK, 2 IRQ, 3 RST (file 00 R13). -/
def lineOfIndex (n : BitVec 2) : Line :=
  if n = 0#2 then .data else if n = 1#2 then .clk else if n = 2#2 then .irq else .rst

/-- The index of a line (file 00 R13). -/
def Line.index : Line → BitVec 2
  | .data => 0#2
  | .clk  => 1#2
  | .irq  => 2#2
  | .rst  => 3#2

/-! ### The decoder (R83) -/

/-- A command that `ok` admits. -/
def admitWhen (ok : Bool) (i : Instr) : Except Reject Instr :=
  if ok then .ok i else .error .fixedField

/-- The `case op of` part of R83. -/
def decodeFields (op : BitVec 4) (ln : BitVec 2) (lv : Level) : Except Reject Instr :=
  match op.toNat with
  | 0 => admitWhen (ln == 0#2 && !lv) .nop
  | 1 => .ok (.cfgOut (lineOfIndex ln) lv)
  | 2 => admitWhen (!lv) (.cfgIn (lineOfIndex ln))
  | 3 => .ok (.set (lineOfIndex ln) lv)
  | 4 => admitWhen (!lv) (.read (lineOfIndex ln))
  | 5 => .ok (.latch (lineOfIndex ln) lv)
  | 6 => admitWhen (ln == 0#2 && !lv) .pullFrame
  | 7 => admitWhen (ln == 3#2 && !lv) .resetPulse
  | 8 => admitWhen (ln == 0#2 && !lv) .take
  | 9 => admitWhen (ln == 0#2) (.edgeEn lv)
  | _ => .error .reservedOpcode

/-- Decode, total on all 2^32 words (R83); `.error` is INVALID. -/
def decode (w : Word) : Except Reject Instr :=
  if reservedZero w then decodeFields (fieldOp w) (fieldLn w) (fieldLv w)
  else .error .reservedBits

/-! ### The encoder (R81, R86) -/

/-- `enc(OP, LN, LV) = zext_32({OP[3:0], 2'b00, LN[1:0], 7'b0000000, LV})` (R81). -/
def enc (op : BitVec 4) (ln : BitVec 2) (lv : Level) : Word :=
  (op ++ 0#2 ++ ln ++ 0#7 ++ BitVec.ofBool lv).zeroExtend 32

/-- The word of a command (R82, R86). -/
def encode : Instr → Word
  | .nop          => enc 0 0 false
  | .cfgOut ln lv => enc 1 ln.index lv
  | .cfgIn ln     => enc 2 ln.index false
  | .set ln lv    => enc 3 ln.index lv
  | .read ln      => enc 4 ln.index false
  | .latch ln lv  => enc 5 ln.index lv
  | .pullFrame    => enc 6 0 false
  | .resetPulse   => enc 7 3 false
  | .take         => enc 8 0 false
  | .edgeEn lv    => enc 9 0 lv

/-! ### The opcode map (R82) -/

/-- The match of a command's row in the opcode map. -/
def rowMatch : Instr → Word
  | .nop        => 0x00000000#32
  | .cfgOut _ _ => 0x00001000#32
  | .cfgIn _    => 0x00002000#32
  | .set _ _    => 0x00003000#32
  | .read _     => 0x00004000#32
  | .latch _ _  => 0x00005000#32
  | .pullFrame  => 0x00006000#32
  | .resetPulse => 0x00007300#32
  | .take       => 0x00008000#32
  | .edgeEn _   => 0x00009000#32

/-- The mask of a command's row in the opcode map. -/
def rowMask : Instr → Word
  | .nop        => 0xFFFFFFFF#32
  | .cfgOut _ _ => 0xFFFFFCFE#32
  | .cfgIn _    => 0xFFFFFCFF#32
  | .set _ _    => 0xFFFFFCFE#32
  | .read _     => 0xFFFFFCFF#32
  | .latch _ _  => 0xFFFFFCFE#32
  | .pullFrame  => 0xFFFFFFFF#32
  | .resetPulse => 0xFFFFFFFF#32
  | .take       => 0xFFFFFFFF#32
  | .edgeEn _   => 0xFFFFFFFE#32

/-! ### The host's view -/

/-- The command this decoder reads from a word whose low `nbits` bits are those of `w` and whose other bits are 0. -/
def decodeTableWord (nbits w : Nat) : Option Instr :=
  (decode (BitVec.ofNat 32 (w % 2 ^ nbits))).toOption

end Sys2Proof
end

