-- ==== Sys2Proof/WellFormed.lean ====
section
/-! DEFINITION. Well-formedness. A term of `Instr` is well formed by its type: a line is one of four, a level one of
two, and a command whose LN or LV the map fixes (file 30 R82) has no such operand, so no ill-formed command can be
written and `Instr` needs no check. What needs checks is what the block and the consumer are given from outside: the
pin identifiers (file 00 R10) and the consumer's parameters (file 45 R180). -/

namespace Sys2Proof

/-- No pin identifier is zero: "absence of any is a fatal configuration error" (file 00 R10). -/
def Params.pinsPresent (p : Params) : Bool :=
  p.pin.data != 0 && p.pin.clk != 0 && p.pin.irq != 0 && p.pin.rst != 0

/-- The four pin identifiers are distinct (file 00 R10, conflict C5). -/
def Params.pinsDistinct (p : Params) : Bool :=
  p.pin.data != p.pin.clk && p.pin.data != p.pin.irq && p.pin.data != p.pin.rst &&
  p.pin.clk != p.pin.irq && p.pin.clk != p.pin.rst && p.pin.irq != p.pin.rst

/-- The PinSet invariant (file 00 R10). The step refuses a block without it. -/
def Params.wf (p : Params) : Bool :=
  p.pinsPresent && p.pinsDistinct

/-- The host's check before any line is touched: row count, column count and KEYMAP non-zero, non-empty
(file 70 R234). -/
def ConsumerParams.present (c : ConsumerParams) : Bool :=
  c.rows != 0 && c.cols != 0 && !c.keymap.isEmpty

/-- The constraints on the consumer's parameters (file 45 R180): present, and KEYMAP of length at least
`2 * ROWS * COLS`. -/
def ConsumerParams.wf (c : ConsumerParams) : Bool :=
  c.present && decide (2 * c.rows * c.cols ≤ c.keymap.length)

end Sys2Proof
end

