-- ==== Sys2Proof/Machine/Consumer.lean ====
section
/-! DEFINITION. The host-side frame consumer (file 45), outside the block: how a frame becomes a key event. Only host
software calls it; no command does. -/

namespace Sys2Proof.Machine

/-- A frame with bit 7 clear is a press, with bit 7 set a release (file 45 R181). -/
def framePressed (v : Byte) : Bool := !v.getLsbD 7

/-- Row: bits 6:4 (R182). -/
def frameRow (v : Byte) : Nat := (v.extractLsb' 4 3).toNat

/-- Column: the low nibble less one, and 0 for the nibble 0; nibbles 0 and 1 both give column 0 (R183). -/
def frameCol (v : Byte) : Nat :=
  let raw := (v.extractLsb' 0 4).toNat
  if raw ≠ 0 then raw - 1 else 0

/-- The pair is in range (R184, conflict C4). -/
def inRange (c : ConsumerParams) (row col : Nat) : Bool :=
  decide (row < c.rows) && decide (col < c.cols)

/-- `index = 2 * (row * COLS + col)` (R185). -/
def keyIndex (c : ConsumerParams) (row col : Nat) : Nat := 2 * (row * c.cols + col)

/-- The keycode at an index. An index past KEYMAP is never dereferenced (file 45 R184); none arises when the
parameters meet R180 (R185). -/
def keycodeAt (c : ConsumerParams) (index : Nat) : Option Int := c.keymap[index]?

/-- The key event of a frame, if it gives one: none out of range, none for KEY_UNKNOWN (R184 to R186). -/
def keyEvent (c : ConsumerParams) (v : Byte) : Option (Int × Bool) :=
  if inRange c (frameRow v) (frameCol v) then
    match keycodeAt c (keyIndex c (frameRow v) (frameCol v)) with
    | some kc => if kc = c.keyUnknown then none else some (kc, framePressed v)
    | none => none
  else none

/-- What the consumer calls on the sink for a frame: `reportKey` and one `sync`, or nothing (R186, R187). -/
def consume (c : ConsumerParams) (v : Byte) : List SinkCall :=
  match keyEvent c v with
  | some (kc, pressed) => [.reportKey kc pressed, .sync]
  | none => []

/-- The entries at even positions of a list. -/
def evenEntries : List Int → List Int
  | [] => []
  | [x] => [x]
  | x :: _ :: rest => x :: evenEntries rest

/-- The capability set: every keycode at an even index of KEYMAP that is not KEY_UNKNOWN (R188). -/
def capabilitySet (c : ConsumerParams) : List Int :=
  (evenEntries c.keymap).filter (fun kc => kc != c.keyUnknown)

end Sys2Proof.Machine
end

