-- ==== Sys2Proof/Machine/Protocol.lean ====
section
/-! DEFINITION. The host's pseudo-instructions (file 30 R87), its protocols as programs (file 70 R234 to R239), and the
assembler syntax of commands (file 30 R86). -/

namespace Sys2Proof.Machine

/-- The write of a command's word to CMD (file 20 R62). -/
def cmdWrite (p : Params) (i : Instr) : Access := .write (p.base + 0x0) 4 (encode i)

/-- The read of STATUS (file 10 R27). -/
def statusRead (p : Params) : Access := .read (p.base + 0x4) 4

/-- The read of RESULT (file 10 R27). -/
def resultRead (p : Params) : Access := .read (p.base + 0x8) 4

/-- `issue <command>`: write the command's word to CMD (R87). -/
def issueOp (p : Params) (i : Instr) : HostOp := .access (cmdWrite p i)

/-- `rd status` (R87). -/
def rdStatus (p : Params) : HostOp := .access (statusRead p)

/-- `rd result` (R87). -/
def rdResult (p : Params) : HostOp := .access (resultRead p)

/-- `rd lines` (R87). -/
def rdLines (p : Params) : HostOp := .access (.read (p.base + 0xC) 4)

/-- The boot sequence (file 70 R236). -/
def bootProgram (p : Params) : List HostOp :=
  [issueOp p (.cfgIn .irq), .waitIdle, issueOp p (.cfgOut .rst true), .waitIdle,
   issueOp p .resetPulse, .waitIdle, issueOp p (.edgeEn true)]

/-- The accesses of a decode as a program: claim the request, pull the frame, read it (file 70 R237). The consumer's
decode task makes the same ones and then dispatches the frame (`State.opAccess`, `State.afterDecodeStep`). -/
def decodeProgram (p : Params) : List HostOp :=
  [issueOp p .take, issueOp p .pullFrame, .waitIdle, rdResult p]

/-- Suspend issues nothing (file 70 R238, file 60 R214). -/
def suspendProgram (_ : Params) : List HostOp := []

/-- The resume sequence (file 70 R239, file 60 R215). -/
def resumeProgram (p : Params) : List HostOp :=
  [issueOp p (.latch .data true), .waitIdle, issueOp p (.latch .clk true), .waitIdle,
   issueOp p (.latch .irq true), .waitIdle, issueOp p .resetPulse, .waitIdle]

/-- Binding the driver: the pins and the consumer's parameters are checked before any line is touched; on success the
boot program and the capability set, on any missing field nothing at all (file 70 R234, R235; file 00 R10). -/
def bindDriver (p : Params) (c : ConsumerParams) : Option (List HostOp × List Int) :=
  if p.pinsPresent && c.present then some (bootProgram p, capabilitySet c) else none

/-! ### Assembler syntax (R86) -/

/-- The spelling of a line operand. -/
def lineToken : Line → String
  | .data => "data"
  | .clk  => "clk"
  | .irq  => "irq"
  | .rst  => "rst"

/-- The spelling of a level operand. -/
def levelToken (v : Level) : String := if v then "1" else "0"

/-- A line operand: `data`, `clk`, `irq`, `rst`, or 0 to 3; any other spelling is refused (R86). -/
def lineOfToken (t : String) : Option Line :=
  if t = "data" || t = "0" then some .data
  else if t = "clk" || t = "1" then some .clk
  else if t = "irq" || t = "2" then some .irq
  else if t = "rst" || t = "3" then some .rst
  else none

/-- A level operand: `0` or `1`; any other spelling is refused (R86). -/
def levelOfToken (t : String) : Option Level :=
  if t = "0" then some false else if t = "1" then some true else none

/-- A command as its mnemonic and its operands (R86). -/
def tokens : Instr → List String
  | .nop          => ["nop"]
  | .cfgOut ln lv => ["cfg_out", lineToken ln, levelToken lv]
  | .cfgIn ln     => ["cfg_in", lineToken ln]
  | .set ln lv    => ["set", lineToken ln, levelToken lv]
  | .read ln      => ["read", lineToken ln]
  | .latch ln lv  => ["latch", lineToken ln, levelToken lv]
  | .pullFrame    => ["pull_frame"]
  | .resetPulse   => ["reset_pulse"]
  | .take         => ["take"]
  | .edgeEn lv    => ["edge_en", levelToken lv]

/-- A command as it is written: the mnemonic, then the operands separated by commas (R86). -/
def spelling (i : Instr) : String :=
  match tokens i with
  | [] => ""
  | [m] => m
  | m :: operands => m ++ " " ++ ", ".intercalate operands

/-- The command a mnemonic without operands names (R86). -/
def bareCommand (m : String) : Option Instr :=
  if m = "nop" then some .nop
  else if m = "pull_frame" then some .pullFrame
  else if m = "reset_pulse" then some .resetPulse
  else if m = "take" then some .take
  else none

/-- The command a mnemonic with one operand names (R86). -/
def unaryCommand (m a : String) : Option Instr :=
  if m = "cfg_in" then (lineOfToken a).map .cfgIn
  else if m = "read" then (lineOfToken a).map .read
  else if m = "edge_en" then (levelOfToken a).map .edgeEn
  else none

/-- The command a mnemonic with a line and a level names (R86). -/
def binaryCommand (m a b : String) : Option Instr :=
  match lineOfToken a, levelOfToken b with
  | some ln, some lv =>
    if m = "cfg_out" then some (.cfgOut ln lv)
    else if m = "set" then some (.set ln lv)
    else if m = "latch" then some (.latch ln lv)
    else none
  | _, _ => none

/-- The assembler: the command that a mnemonic with its operands names, if the spelling is one of R86's. -/
def assemble : List String → Option Instr
  | [m]       => bareCommand m
  | [m, a]    => unaryCommand m a
  | [m, a, b] => binaryCommand m a b
  | _         => none

end Sys2Proof.Machine
end

