-- ==== Sys2Proof/Machine/HostPort.lean ====
section
/-! DEFINITION. The host port: MemRead and MemWrite of the register window (file 20 R60 to R68), and the host's
operations (file 30 R87, file 45 R189, file 60 R207). -/

namespace Sys2Proof.Machine

/-- The address lies in the window BASE to BASE + 0xF (file 20 R60). -/
def inWindow (p : Params) (a : Nat) : Bool :=
  decide (p.base ≤ a) && decide (a < p.base + 16)

/-- The access is an aligned 32-bit one (file 20 R61). -/
def admitted (p : Params) (a n : Nat) : Bool :=
  n == 4 && (a - p.base) % 4 == 0

/-- A write of CMD: the word is decoded and its command issued. INVALID is ILLEGAL, unless the block is busy, when the
word is discarded undecoded and the fault is BUSY (file 40 R100, file 60 R201, R204; log entry 18). -/
def issueWord (w : Word) (s : State) : Outcome :=
  match decode w with
  | .ok i => exec i s
  | .error _ => .next (s.raise (if s.seq.busy then .busy else .illegal))

/-- `MemRead(a, n)`: 0 while `rst_n` is asserted (file 70 R231); a bus error reads 0 and records BUS (file 20 R61);
otherwise the register, with no side effect (R62, R63). -/
def memRead (a n : Nat) (s : State) : Outcome :=
  if inWindow s.params a then
    if s.rstN then
      if admitted s.params a n then .next (s.setData (s.regWord (a - s.params.base)))
      else .next ((s.raise .bus).setData 0#32)
    else .next (s.setData 0#32)
  else .fault .outsideWindow

/-- `MemWrite(a, n, v)`: ignored while `rst_n` is asserted (file 70 R231); a bus error, or a write of a register other
than CMD, records BUS and changes nothing else (file 20 R61, R64); a write of CMD issues the command (R62). -/
def memWrite (a n : Nat) (v : Word) (s : State) : Outcome :=
  if inWindow s.params a then
    if s.rstN then
      if admitted s.params a n && a == s.params.base then issueWord v s
      else .next (s.raise .bus)
    else .next s
  else .fault .outsideWindow

/-- One host access (file 20 R61). -/
def access : Access → State → Outcome
  | .read a n    => memRead a n
  | .write a n v => memWrite a n v

/-- The access an operation of the host makes next, if it makes one (file 30 R87). The decode task makes those of file
70 R237 in order: TAKE starts the decode of an engine that is Idle. -/
def State.opAccess (s : State) : HostOp → Option Access
  | .access x => some x
  | .waitIdle => some (statusRead s.params)
  | .decodeTask =>
    match s.host.engine with
    | .idle                   => some (cmdWrite s.params .take)
    | .decoding .pull         => some (cmdWrite s.params .pullFrame)
    | .decoding .wait         => some (statusRead s.params)
    | .decoding .read         => some (resultRead s.params)
    | .decoding (.dispatch _) => none

/-- `wait_idle` after a read of STATUS: the loop goes on, as the next operation of the program, while BUSY = 1 (file 30
R87). -/
def State.afterStatusRead (s : State) : State :=
  if s.host.data.getLsbD 0 then s.setProgram (.waitIdle :: s.host.program) else s

/-- The decode goes on at a stage, as the next operation of the program (file 45 R189). -/
def State.goOnDecoding (s : State) (g : DecodeStage) : State :=
  s.setHost { s.host with engine := .decoding g, program := .decodeTask :: s.host.program }

/-- The end of a decode: the consumer turns the frame into its calls on the sink, and the engine is Idle again,
unconditionally (file 45 R181 to R189). -/
def State.dispatchFrame (s : State) (v : Byte) : State :=
  s.setHost { s.host with sink := s.host.sink ++ consume s.host.consumer v, engine := .idle }

/-- The decode task after its access: on to the next stage; at the last, which makes no access, the dispatch of the frame
that this decode read (file 70 R237, file 45 R189). -/
def State.afterDecodeStep (s : State) : State :=
  match s.host.engine with
  | .idle                   => s.goOnDecoding .pull
  | .decoding .pull         => s.goOnDecoding .wait
  | .decoding .wait         => s.goOnDecoding (if s.host.data.getLsbD 0 then .wait else .read)
  | .decoding .read         => s.goOnDecoding (.dispatch (s.host.data.extractLsb' 0 8))
  | .decoding (.dispatch v) => s.dispatchFrame v

/-- What the host's software does after an operation's access: nothing to the block. -/
def State.afterOp (s : State) : HostOp → State
  | .access _   => s
  | .waitIdle   => s.afterStatusRead
  | .decodeTask => s.afterDecodeStep

/-- The access an operation makes, if it makes one. -/
def accessIfAny (x : Option Access) (s : State) : Outcome :=
  match x with
  | some x => access x s
  | none   => .next s

/-- One operation of the host: its access, then its software. -/
def hostOp (op : HostOp) (s : State) : Outcome :=
  onNext (fun t => t.afterOp op) (accessIfAny (s.opAccess op) s)

/-- The host's next operation: the first of its program, or a free one when the program is used up (log entry 2). -/
def State.nextHostOp (s : State) : HostOp :=
  match s.host.program with
  | op :: _ => op
  | []      => Config.freeHostOp s.draws

/-- The state with that operation taken from the host's program. -/
def State.popHostOp (s : State) : State :=
  match s.host.program with
  | _ :: ops => s.setProgram ops
  | []       => { s with draws := s.draws + 1 }

/-- A turn of HOST: its next operation. -/
def hostTurn (s : State) : Outcome :=
  hostOp s.nextHostOp s.popHostOp

/-- A decode task is scheduled and has not started: the host's program holds one besides the one in progress. -/
def State.decodeScheduled (s : State) : Bool :=
  decide ((if s.host.engine = .idle then 0 else 1) < s.host.program.count .decodeTask)

/-- The host's interrupt entry point: while `irq_out` is high and no decode task waits to start, one is put behind the
host's program; no access is made (file 60 R207, file 70 R237). DESIGN CHOICE (log entry 14): the entry looks at the
level, puts the task last, and leaves the engine as it is, so an engine that is Idle stays Idle until the task's TAKE. -/
def State.irqEntry (s : State) : State :=
  if s.irqOut && !s.decodeScheduled then s.setProgram (s.host.program ++ [.decodeTask]) else s

end Sys2Proof.Machine
end

