-- ==== Sys2Proof/Machine/Agents.lean ====
section
/-! DEFINITION. The turns of the agents (file 00 R15), the schedule, and what a step does besides one turn. -/

namespace Sys2Proof.Machine

/-- CLOCK lets time pass (file 00 R15). -/
def State.clockTurn (s : State) (dt : Nat) : State :=
  { s with now := s.now + dt }

/-- `rst_n` takes a level: asserted, it resets the block; released, the block starts from the state it is in (file 70
R230, R232). -/
def State.rstTurn (s : State) (v : Level) : State :=
  if v then { s with rstN := true } else { s.blockReset with rstN := false }

/-- One turn. -/
def performTurn (t : Turn) (s : State) : Outcome :=
  match t with
  | .host     => hostTurn s
  | .irqEntry => .next s.irqEntry
  | .seq      => .next s.seqTurn
  | .waitEnd  => .next s.endWait
  | .clock dt => .next (s.clockTurn dt)
  | .env l v  => .next (s.setExt l v)
  | .rstN v   => .next (s.rstTurn v)

/-- Whose turn it is: the agenda's first, or a free one (file 93 U6; log entry 1). DESIGN CHOICE (log entry 19): no
fairness is imposed, so runs in which an enabled wait end or SEQ step is never taken are admitted. -/
def State.nextTurn (s : State) : Turn :=
  match s.agenda with
  | t :: _ => t
  | []     => Config.freeTurn s.draws

/-- The state with that turn taken from the schedule. -/
def State.popTurn (s : State) : State :=
  match s.agenda with
  | _ :: ts => { s with agenda := ts }
  | []      => { s with draws := s.draws + 1 }

/-- The end of a step: the edge detector is evaluated after the step's own writes (file 42 R167, R170), whatever the turn
was (log entry 16). -/
def endOfStep (o : Outcome) : Outcome := onNext State.edgeDetect o

/-- A step of a block whose pin identifiers are as R10 asks: one turn, then the edge detector. -/
def runTurn (s : State) : Outcome :=
  endOfStep (performTurn s.nextTurn s.popTurn)

/-- The state in which the next turn is HOST's and its next operation writes this word to CMD, with `rst_n` released
(log entry 13). -/
def State.placeWrite (s : State) (w : Word) : State :=
  { s with
    rstN := true
    agenda := .host :: s.agenda
    host := { s.host with program := .access (.write s.params.base 4 w) :: s.host.program } }

end Sys2Proof.Machine
end

