-- ==== Sys2Proof/Machine/Step.lean ====
section
/-! DEFINITION. One step of the machine, and how a command's word is placed so that the next step issues it. -/

namespace Sys2Proof.Machine

/-- One step: a block with a zero or repeated pin identifier gets none (file 00 R10); otherwise one turn of one agent
and the edge detector (file 00 R15, file 42 R170). -/
def step (s : State) : Host.Outcome State Fault Refusal :=
  if s.params.wf then runTurn s else .refused .badPinSet

/-- `s` with the command whose low `nbits` bits are those of `w`, the others 0, as what the very next step issues: the
host's next operation is the write of that word to CMD (log entry 13). -/
def State.withFetchWord (s : State) (nbits w : Nat) : State :=
  s.placeWrite (BitVec.ofNat 32 (w % 2 ^ nbits))

end Sys2Proof.Machine
end

