-- ==== Sys2Proof/Safety.lean ====
section
/-! DEFINITION. The terms claims are stated in: runs, the levels a run samples, a command from its acceptance to its
finish, what its micro-steps do to the lines, how much of it remains, the machine's invariant, and a run's end. -/

namespace Sys2Proof.Machine

/-! ### Runs -/

/-- `n` steps, ending at the first that is no next state. -/
def runSteps : Nat → State → Outcome
  | 0, s => .next s
  | n + 1, s =>
    match step s with
    | .next t => runSteps n t
    | o => o

/-- The states before each of the first `n` steps. -/
def visited : Nat → State → List State
  | 0, _ => []
  | n + 1, s =>
    s :: (match step s with
      | .next t => visited n t
      | _ => [])

/-- Command `i`, issued while the block is idle, is accepted and takes several steps (file 40 R101). -/
def Accepted (i : Instr) (s₀ s : State) : Prop :=
  s₀.seq.busy = false ∧ exec i s₀ = .next s ∧ s.seq.busy = true

/-- `n` steps from `s` to `t` inside one command: it is in progress before each of them, and `rst_n` stays released.
Nothing else is assumed: HOST, ENV and CLOCK take what turns they like. At `t` it is in progress or just finished. -/
def WithinCommand (n : Nat) (s t : State) : Prop :=
  runSteps n s = .next t ∧ (∀ u ∈ visited n s, u.seq.busy = true ∧ u.rstN = true) ∧ t.rstN = true

/-- The access a turn of HOST makes next, for its program or for the decode task in it. -/
def State.nextAccess (s : State) : Option Access := s.opAccess s.nextHostOp

/-- The next step is HOST's, and writes this word to CMD (file 20 R62). -/
def State.hostWrites (s : State) (w : Word) : Prop :=
  s.nextTurn = .host ∧ s.popTurn.nextAccess = some (.write s.params.base 4 w)

/-- The next step is HOST's, and a step of its decode task (file 70 R237). -/
def State.decodeTurn (s : State) : Prop :=
  s.nextTurn = .host ∧ s.popTurn.nextHostOp = .decodeTask

/-- The next step is SEQ's and samples DATA (file 40 R104). -/
def State.samplesNow (s : State) : Bool :=
  s.nextTurn == .seq && s.seqReady &&
    (match s.seq.list[s.seq.k]? with
      | some ⟨.sample _, _⟩ => true
      | _ => false)

/-- `pin(DATA)` at each step of a run that samples it, in order (file 41 R137). -/
def sampledLevels (us : List State) : List Level :=
  (us.filter State.samplesNow).map fun u => u.pin .data

/-! ### Micro-steps -/

/-- What an action does to the line state file (file 40 R104). -/
def lineEffect (ls : PerLine LineState) : Action → PerLine LineState
  | .cfgOut l v => ls.put l ⟨.out, v⟩
  | .cfgIn l    => ls.put l ⟨.inp, (ls.get l).lat⟩
  | .drive l v  => ls.put l ⟨(ls.get l).dir, v⟩
  | .sample _   => ls

/-- What the actions of a list do to the line state file, in order. -/
def lineEffects (ls : PerLine LineState) (ms : List MicroStep) : PerLine LineState :=
  ms.foldl (fun acc m => lineEffect acc m.action) ls

/-- Every Drive of the list finds its line OUT (file 40 R104, file 41 R131) and every Sample finds DATA IN (file 41
R135), when the list runs from these lines. -/
def legal : PerLine LineState → List MicroStep → Bool
  | _, [] => true
  | ls, m :: ms =>
    (match m.action with
      | .drive l _ => (ls.get l).dir == .out
      | .sample _  => ls.data.dir == .inp
      | _ => true) && legal (lineEffect ls m.action) ms

/-- The micro-steps a command is accepted with, when it is accepted with any (file 40 R107 to R110, file 41 R131, file
42 R160). -/
def microSteps : Instr → List MicroStep
  | .cfgOut l v => [⟨.cfgOut l v, .settle⟩]
  | .cfgIn l    => [⟨.cfgIn l, .settle⟩]
  | .set l v    => [⟨.drive l v, .settle⟩]
  | .latch l v  => [⟨.drive l v, .settle⟩]
  | .pullFrame  => pullList
  | .resetPulse => resetPulseList
  | .nop        => []
  | .read _     => []
  | .take       => []
  | .edgeEn _   => []

/-- The least time from the issue of a command in this state to BUSY = 0: LATCH waits on an OUT line only (file 70
R245). -/
def State.minimumTime (s : State) : Instr → Nat
  | .cfgOut _ _ => s.params.tSettle
  | .cfgIn _    => s.params.tSettle
  | .set _ _    => s.params.tSettle
  | .latch l _  => if s.isOut l then s.params.tSettle else 0
  | .pullFrame  => 25 * s.params.tSettle
  | .resetPulse => 3 * s.params.tRst
  | .nop        => 0
  | .read _     => 0
  | .take       => 0
  | .edgeEn _   => 0

/-- The SEQ steps and wait ends still ahead of the command in progress, its finish among them; 0 when idle. -/
def State.remaining (s : State) : Nat :=
  if s.seq.busy then
    ((s.seq.list.drop s.seq.k).map fun m => if m.wait = .none then 1 else 2).sum
      + (if s.seq.wait = .none then 0 else 1) + 1
  else 0

/-! ### The invariant -/

/-- What every step keeps. -/
structure State.Inv (s : State) : Prop where
  /-- FAULT = 0 if and only if FCAUSE = 0 (file 10 R34). -/
  faultCause : s.fault = false ↔ s.fcause = 0#4
  /-- Codes 5 to 15 are never produced (file 60 R200). -/
  causeRange : s.fcause.toNat ≤ 4
  /-- RESULT[31:8] reads 0 (file 10 R28). -/
  resultHigh : s.result.extractLsb' 8 24 = 0#24
  /-- The list of the command in progress is its own (file 40 R101). -/
  seqList : s.seq.busy = true → s.seq.list = microSteps s.seq.cmd
  /-- `seq.k` is 0 to the list's length (file 10 R29). -/
  seqIndex : s.seq.busy = true → s.seq.k ≤ s.seq.list.length
  /-- A wait in progress is that of the micro-step last performed (file 40 R102). -/
  seqWait : s.seq.busy = true → s.seq.wait ≠ .none →
    ∃ m, s.seq.k ≠ 0 ∧ s.seq.list[s.seq.k - 1]? = some m ∧ m.wait = s.seq.wait
  /-- A wait in progress began in the past (file 10 R29). -/
  seqSince : s.seq.busy = true → s.seq.wait ≠ .none → s.seq.since ≤ s.now
  /-- Every Drive still to come will find its line OUT, and every Sample DATA IN (file 40 R104, file 41 R135). -/
  seqLegal : s.seq.busy = true → legal s.lines (s.seq.list.drop s.seq.k) = true
  /-- While detection is enabled, `edge.prev` is `pin(IRQ)` at the end of the last step (file 10 R32). -/
  edgePrev : s.edgeEn = true → s.edgePrev = s.pin .irq
  /-- While `rst_n` is asserted the block stays in its reset state (file 70 R230). -/
  inReset : s.rstN = false →
    s.lines = linesReset ∧ s.seq.busy = false ∧ s.result = 0#32 ∧ s.edgeEn = false ∧ s.pend = false ∧ s.fault = false

/-! ### The end of a run -/

/-- What is observed at the end of a run: STATUS, RESULT, LINES and the pin levels (file 70 R247). -/
structure Observation where
  status : Word
  result : Word
  lines  : Word
  pins   : PerLine Level
  deriving DecidableEq, Repr

/-- The observation of a state (file 70 R247). -/
def State.observe (s : State) : Observation :=
  { status := s.statusWord, result := s.result, lines := s.linesWord,
    pins := { data := s.pin .data, clk := s.pin .clk, irq := s.pin .irq, rst := s.pin .rst } }

/-- A run of a host program has ended: no access is left to issue and no command is in progress (file 70 R247). -/
def State.ended (s : State) : Bool :=
  s.host.program.isEmpty && !s.seq.busy

/-- The premise of a claim about a run: no fault was recorded by its end (file 60 R202). -/
def State.faultFree (s : State) : Bool := !s.fault

end Sys2Proof.Machine
end

