-- ==== Sys2Proof/Certificates/Slice0/Obligations.lean ====
section
/-! DEFINITION. The statements about the block, each a proposition: encoding and decoding, the commands, faults,
registers and accesses, reset, the edge detector, whole runs of a command, and the frame consumer. -/

open Sys2Proof Sys2Proof.Machine

/-! ### Encoding -/

/-- Words written out from the opcode map (file 30 R82), valid and invalid (R84). A sanity statement. -/
def Obligations.Decode_words : Prop :=
  decode 0x00000000#32 = .ok .nop ∧
  decode 0x00001301#32 = .ok (.cfgOut .rst true) ∧
  decode 0x00002200#32 = .ok (.cfgIn .irq) ∧
  decode 0x00003100#32 = .ok (.set .clk false) ∧
  decode 0x00004300#32 = .ok (.read .rst) ∧
  decode 0x00005201#32 = .ok (.latch .irq true) ∧
  decode 0x00006000#32 = .ok .pullFrame ∧
  decode 0x00007300#32 = .ok .resetPulse ∧
  decode 0x00008000#32 = .ok .take ∧
  decode 0x00009001#32 = .ok (.edgeEn true) ∧
  decode 0x00007000#32 = .error .fixedField ∧
  decode 0x0000A000#32 = .error .reservedOpcode ∧
  decode 0x00001002#32 = .error .reservedBits

/-- Decode and encode agree on all 2^32 words and all commands: a word decodes to a command exactly when it is that
command's word (file 30 R81, R83). -/
def Obligations.Decode_iff_encode : Prop :=
  ∀ (w : Word) (i : Instr), decode w = .ok i ↔ w = encode i

/-- The decode function of R83 and the opcode map of R82 are two accounts of one thing: a word is valid exactly when it
matches exactly one row of the map. -/
def Obligations.Decode_agrees_with_opcode_map : Prop :=
  ∀ w : Word,
    (∃ i, decode w = .ok i) ↔
    (([(0x00000000#32, 0xFFFFFFFF#32), (0x00001000#32, 0xFFFFFCFE#32), (0x00002000#32, 0xFFFFFCFF#32),
       (0x00003000#32, 0xFFFFFCFE#32), (0x00004000#32, 0xFFFFFCFF#32), (0x00005000#32, 0xFFFFFCFE#32),
       (0x00006000#32, 0xFFFFFFFF#32), (0x00007300#32, 0xFFFFFFFF#32), (0x00008000#32, 0xFFFFFFFF#32),
       (0x00009000#32, 0xFFFFFFFE#32)] : List (Word × Word)).filter fun r => w &&& r.2 == r.1).length = 1

/-- The 38 valid words, counted by opcode; every other word decodes to no command (file 30 R88). -/
def Obligations.Valid_words_counted : Prop :=
  ∃ l : List Word, l.Nodup ∧ l.length = 38 ∧ (∀ w, w ∈ l ↔ ∃ i, decode w = .ok i) ∧
    (l.filter fun w => fieldOp w == 0#4).length = 1 ∧
    (l.filter fun w => fieldOp w == 1#4).length = 8 ∧
    (l.filter fun w => fieldOp w == 2#4).length = 4 ∧
    (l.filter fun w => fieldOp w == 3#4).length = 8 ∧
    (l.filter fun w => fieldOp w == 4#4).length = 4 ∧
    (l.filter fun w => fieldOp w == 5#4).length = 8 ∧
    (l.filter fun w => fieldOp w == 6#4).length = 1 ∧
    (l.filter fun w => fieldOp w == 7#4).length = 1 ∧
    (l.filter fun w => fieldOp w == 8#4).length = 1 ∧
    (l.filter fun w => fieldOp w == 9#4).length = 2

/-- `enc` is `(OP << 12) | (LN << 8) | LV`, and its fields read back (file 30 R81). -/
def Obligations.Enc_is_fields : Prop :=
  ∀ (op : BitVec 4) (ln : BitVec 2) (lv : Level),
    enc op ln lv = (op.zeroExtend 32 <<< 12) ||| (ln.zeroExtend 32 <<< 8) ||| (BitVec.ofBool lv).zeroExtend 32 ∧
    fieldOp (enc op ln lv) = op ∧ fieldLn (enc op ln lv) = ln ∧ fieldLv (enc op ln lv) = lv ∧
    reservedZero (enc op ln lv) = true

/-- The assembler reads back every command's own spelling, and takes a line by number too (file 30 R86). -/
def Obligations.Assembler_reads_spelling : Prop :=
  (∀ i : Instr, assemble (tokens i) = some i) ∧
  (∀ l : Line, lineOfToken (lineToken l) = some l) ∧
  lineOfToken "0" = some .data ∧ lineOfToken "1" = some .clk ∧ lineOfToken "2" = some .irq ∧
  lineOfToken "3" = some .rst

/-! ### A step runs the decoded command -/

/-- Where HOST writes to CMD a word that decodes to `i`, with `rst_n` released, the step is `exec i` on the state with
the turn and the host's operation taken, and then the edge detector (file 20 R62, file 40 R100, file 42 R170); where the
write is one of the decode task's, the host's own state `h` moves on as well. The placed word of `withFetchWord` is issued
so. -/
def Obligations.Step_issues_decoded_command : Prop :=
  (∀ (s : State) (w : Word) (i : Instr), s.params.wf = true → s.rstN = true → s.hostWrites w →
    decode w = .ok i →
    ∃ h, step s = endOfStep (exec i { s.popTurn.popHostOp with host := h }) ∧
      (s.popTurn.nextHostOp ≠ .decodeTask → h = s.popTurn.popHostOp.host)) ∧
  (∀ (s : State) (nbits w : Nat) (i : Instr), s.params.wf = true → decodeTableWord nbits w = some i →
    step (s.withFetchWord nbits w) = endOfStep (exec i { s with rstN := true }))

/-! ### The commands, issued while idle -/

/-- NOP leaves everything as it is (file 40 R106). -/
def Obligations.Nop_changes_nothing : Prop :=
  ∀ s : State, s.seq.busy = false → exec .nop s = .next s

/-- CFG_OUT and CFG_IN are accepted in every idle state, whatever the line's direction: SEQ is busy with the one
micro-step, and nothing else changes (file 40 R101, R107, R108). -/
def Obligations.Cfg_commands_start : Prop :=
  ∀ (s : State) (l : Line) (v : Level), s.seq.busy = false →
    exec (.cfgOut l v) s = .next { s with
      seq := { s.seq with busy := true, cmd := .cfgOut l v, list := [⟨.cfgOut l v, .settle⟩], k := 0, wait := .none } } ∧
    exec (.cfgIn l) s = .next { s with
      seq := { s.seq with busy := true, cmd := .cfgIn l, list := [⟨.cfgIn l, .settle⟩], k := 0, wait := .none } }

/-- SET on an OUT line, and LATCH on an OUT line, start one drive of the level; nothing else changes (file 40 R109,
R110). -/
def Obligations.Set_and_latch_start_on_output : Prop :=
  ∀ (s : State) (l : Line) (v : Level), s.seq.busy = false → (s.lines.get l).dir = .out →
    exec (.set l v) s = .next { s with
      seq := { s.seq with busy := true, cmd := .set l v, list := [⟨.drive l v, .settle⟩], k := 0, wait := .none } } ∧
    exec (.latch l v) s = .next { s with
      seq := { s.seq with busy := true, cmd := .latch l v, list := [⟨.drive l v, .settle⟩], k := 0, wait := .none } }

/-- LATCH on an IN line writes the latch alone: no pin changes, BUSY stays 0 and no fault is recorded (file 40 R110). -/
def Obligations.Latch_on_input_writes_latch : Prop :=
  ∀ (s : State) (l : Line) (v : Level), s.seq.busy = false → (s.lines.get l).dir = .inp →
    ∃ t, exec (.latch l v) s = .next t ∧ t = { s with lines := s.lines.put l ⟨.inp, v⟩ } ∧
      t.seq.busy = false ∧ ∀ m, t.pin m = s.pin m

/-- READ of an IN line writes the level the environment presents to RESULT, zero-extended, in the issuing step; nothing
else changes (file 40 R111). -/
def Obligations.Read_samples_input : Prop :=
  ∀ (s : State) (l : Line), s.seq.busy = false → (s.lines.get l).dir = .inp →
    exec (.read l) s = .next { s with result := if s.ext.get l then 1#32 else 0#32 }

/-- PULL_FRAME is accepted in every idle state: ACC is cleared, SEQ starts the 33 micro-steps of R131, each checked
against the rule's closed form, and nothing else changes (file 41 R130, R131). -/
def Obligations.PullFrame_starts : Prop :=
  ∀ s : State, s.seq.busy = false →
    ∃ list, exec .pullFrame s = .next { s with
        acc := 0#8, seq := { s.seq with busy := true, cmd := .pullFrame, list := list, k := 0, wait := .none } } ∧
      list.length = 33 ∧
      list.take 5 = [⟨.cfgOut .data false, .settle⟩, ⟨.cfgOut .clk true, .settle⟩, ⟨.drive .clk false, .settle⟩,
        ⟨.cfgIn .data, .settle⟩, ⟨.drive .clk true, .settle⟩] ∧
      (∀ j : Fin 8, list[5 + 3 * j.val]? = some ⟨.drive .clk false, .settle⟩ ∧
        list[6 + 3 * j.val]? = some ⟨.sample (7 - j), .none⟩ ∧
        list[7 + 3 * j.val]? = some ⟨.drive .clk true, .settle⟩) ∧
      list.drop 29 = [⟨.cfgOut .data false, .settle⟩, ⟨.drive .clk false, .settle⟩, ⟨.cfgIn .data, .settle⟩,
        ⟨.drive .clk true, .settle⟩]

/-- RESET_PULSE with RST OUT starts the drives 1, 0, 1 of RST, each with wait RST; nothing else changes (file 42
R160). -/
def Obligations.ResetPulse_starts : Prop :=
  ∀ s : State, s.seq.busy = false → s.lines.rst.dir = .out →
    exec .resetPulse s = .next { s with
      seq := { s.seq with busy := true, cmd := .resetPulse, list := [⟨.drive .rst true, .rst⟩,
        ⟨.drive .rst false, .rst⟩, ⟨.drive .rst true, .rst⟩], k := 0, wait := .none } }

/-- TAKE clears PEND, and EDGE_EN writes `edge.en` and, when enabling, `edge.prev`; nothing else changes, and a step
that issues either detects no edge of its own for the level already present (file 42 R166, R167, R168). -/
def Obligations.Take_and_edgeEn_complete : Prop :=
  ∀ s : State, s.seq.busy = false →
    exec .take s = .next { s with pend := false } ∧
    exec (.edgeEn true) s = .next { s with edgeEn := true, edgePrev := s.pin .irq } ∧
    (∃ t, exec (.edgeEn false) s = .next t ∧ t = { s with edgeEn := false }) ∧
    (∀ t, endOfStep (exec (.edgeEn true) s) = .next t → t.pend = s.pend)

/-! ### Faults -/

/-- A word written to CMD while `seq.busy = 1` is discarded without being decoded: Fault(BUSY), and nothing else
changes, the command in progress included (file 60 R201). -/
def Obligations.Busy_discards_word : Prop :=
  ∀ (s : State) (w : Word), s.rstN = true → s.seq.busy = true →
    access (.write s.params.base 4 w) s =
      .next { s with fault := true, fcause := if s.fault then s.fcause else 3#4 }

/-- The direction checks are SET's (OUT), READ's (IN) and RESET_PULSE's (RST OUT), and no other: where one fails the
command has no effect but Fault(DIRECTION), and otherwise no fault is recorded; PULL_FRAME sets the directions it needs
itself, from whatever directions it finds (file 40 R112). -/
def Obligations.Direction_preconditions : Prop :=
  ∀ (s : State) (i : Instr), s.seq.busy = false →
    let holds : Bool := match i with
      | .set l _ => (s.lines.get l).dir == .out
      | .read l => (s.lines.get l).dir == .inp
      | .resetPulse => s.lines.rst.dir == .out
      | _ => true
    (holds = false → exec i s = .next { s with fault := true, fcause := if s.fault then s.fcause else 2#4 }) ∧
    (holds = true → ∃ t, exec i s = .next t ∧ t.fault = s.fault ∧ t.fcause = s.fcause ∧
      (i = .pullFrame → legal t.lines t.seq.list = true))

/-- An INVALID word written to CMD while idle records Fault(ILLEGAL) and has no other effect: decoding comes before the
direction check, and after BUSY (file 30 R84, file 60 R204). -/
def Obligations.Illegal_word_has_no_effect : Prop :=
  ∀ (s : State) (w : Word), s.rstN = true → (∀ i, w ≠ encode i) →
    access (.write s.params.base 4 w) s =
      .next { s with
        fault := true
        fcause := if s.fault then s.fcause else if s.seq.busy then 3#4 else 1#4 }

/-- An access to the window that is not an aligned 32-bit one is a bus error: Fault(BUS), a read returns 0, a write
changes nothing else, busy or not (file 20 R61). -/
def Obligations.Bus_error_on_bad_access : Prop :=
  ∀ (s : State) (off n : Nat) (v : Word), s.rstN = true → off < 16 → (n ≠ 4 ∨ off % 4 ≠ 0) →
    access (.read (s.params.base + off) n) s =
      .next { s with fault := true, fcause := if s.fault then s.fcause else 4#4, host := { s.host with data := 0#32 } } ∧
    access (.write (s.params.base + off) n v) s =
      .next { s with fault := true, fcause := if s.fault then s.fcause else 4#4 }

/-- A write of STATUS, RESULT or LINES records Fault(BUS) and changes nothing else (file 20 R64). -/
def Obligations.Bus_error_on_readonly_write : Prop :=
  ∀ (s : State) (off : Nat) (v : Word), s.rstN = true → (off = 0x4 ∨ off = 0x8 ∨ off = 0xC) →
    access (.write (s.params.base + off) 4 v) s =
      .next { s with fault := true, fcause := if s.fault then s.fcause else 4#4 }

/-- FAULT and FCAUSE are sticky, whatever the step, but for a block reset; and only a step of HOST can record a fault
(file 60 R202, R205). -/
def Obligations.Fault_sticky_and_only_from_host : Prop :=
  ∀ s t : State, step s = .next t → s.nextTurn ≠ .rstN false →
    (s.fault = true → t.fault = true ∧ t.fcause = s.fcause) ∧
    (s.fault = false → t.fault = true → s.nextTurn = .host)

/-! ### Registers and accesses -/

/-- `pin(L)` is the latch when the line is OUT and the environment's level when it is IN (file 10 R25). -/
def Obligations.Pin_level : Prop :=
  ∀ (s : State) (l : Line),
    s.pin l = if (s.lines.get l).dir = .out then (s.lines.get l).lat else s.ext.get l

/-- STATUS bit by bit (file 10 R34), and `irq_out` (R36). -/
def Obligations.Status_layout : Prop :=
  ∀ s : State,
    s.statusWord.extractLsb' 8 24 = 0#24 ∧ s.statusWord.extractLsb' 4 4 = s.fcause ∧
    s.statusWord.getLsbD 3 = s.fault ∧ s.statusWord.getLsbD 2 = s.edgeEn ∧
    s.statusWord.getLsbD 1 = s.irqOut ∧ s.statusWord.getLsbD 0 = s.seq.busy ∧ s.irqOut = s.pend

/-- LINES bit by bit: bit `2L` the direction of line L, bit `2L+1` its latch, bits 31:8 zero (file 10 R35). -/
def Obligations.Lines_layout : Prop :=
  ∀ s : State,
    s.linesWord.extractLsb' 8 24 = 0#24 ∧
    ∀ l : Line,
      s.linesWord.getLsbD (2 * l.index.toNat) = ((s.lines.get l).dir == .out) ∧
      s.linesWord.getLsbD (2 * l.index.toNat + 1) = (s.lines.get l).lat

/-- An admitted read returns the register at its offset, CMD as 0, and changes nothing but the value the host holds
(file 10 R27, file 20 R62, R63). -/
def Obligations.Reads_return_registers : Prop :=
  ∀ s : State, s.rstN = true →
    access (.read (s.params.base + 0x0) 4) s = .next { s with host := { s.host with data := 0#32 } } ∧
    access (.read (s.params.base + 0x4) 4) s = .next { s with host := { s.host with data := s.statusWord } } ∧
    access (.read (s.params.base + 0x8) 4) s = .next { s with host := { s.host with data := s.result } } ∧
    access (.read (s.params.base + 0xC) 4) s = .next { s with host := { s.host with data := s.linesWord } }

/-- A whole step in which HOST reads the window with an admitted access leaves the block as it was, the edge detector
and the faults included; only the schedule and what the host holds change (file 20 R63). The premise is the invariant,
under which the edge detector sees no fall in such a step. -/
def Obligations.Read_step_has_no_side_effect : Prop :=
  ∀ (s : State) (off : Nat), s.Inv → s.params.wf = true → s.rstN = true → s.nextTurn = .host →
    off < 16 → off % 4 = 0 → s.popTurn.nextHostOp = .access (.read (s.params.base + off) 4) →
    ∃ h d, step s = .next { s with host := h, agenda := s.popTurn.agenda, draws := d } ∧
      h.data = s.regWord off

/-- The window's bytes, little-endian: byte `i` of the register at offset `o` is bits `[8i+7:8i]` of it (file 20
R65). -/
def Obligations.Window_bytes_little_endian : Prop :=
  ∀ (s : State) (r i : Nat), r < 4 → i < 4 →
    ∀ b, b < 8 → (s.windowByte (4 * r + i)).getLsbD b = (s.regWord (4 * r)).getLsbD (8 * i + b)

/-- `wait_idle` reads STATUS and goes on while BUSY = 1 (file 30 R87). -/
def Obligations.WaitIdle_polls_busy : Prop :=
  ∀ s : State, s.rstN = true →
    (s.seq.busy = true → hostOp .waitIdle s =
      .next { s with host := { s.host with data := s.statusWord, program := .waitIdle :: s.host.program } }) ∧
    (s.seq.busy = false → hostOp .waitIdle s = .next { s with host := { s.host with data := s.statusWord } })

/-- The host's interrupt entry makes no access and leaves the block as it is; while `irq_out` is high and no decode task
waits to start it puts one behind the host's program, and one that waits gets no second one (file 60 R207, file 70 R237,
file 42 R165, R172). That it looks at the level, puts the task last, and leaves the engine Idle until the task starts, is
the model's choice (log entry 14). -/
def Obligations.IrqEntry_schedules_one_decode : Prop :=
  ∀ s : State,
    (s.irqOut = true → s.decodeScheduled = false →
      ∃ t, performTurn .irqEntry s = .next t ∧
        t = { s with host := { s.host with program := s.host.program ++ [.decodeTask] } } ∧
        (s.host.engine = .idle ∨ HostOp.decodeTask ∈ s.host.program → t.decodeScheduled = true)) ∧
    (s.irqOut = false ∨ s.decodeScheduled = true → performTurn .irqEntry s = .next s)

/-- The decode task follows the decode protocol, an access a step, with the engine Decoding from its TAKE on: TAKE,
PULL_FRAME, STATUS until BUSY = 0, RESULT, whose low byte is the frame to dispatch (file 70 R237, file 45 R189). Each step
but the last puts the task back at the head of the host's program. The stages, and that the engine is Idle up to the TAKE,
are the model's choice (log entry 14). -/
def Obligations.Decode_task_follows_protocol : Prop :=
  ∀ s : State, s.rstN = true →
    let goOn (t : State) (w : Word) (g : DecodeStage) : State :=
      { t with host := { s.host with data := w, engine := .decoding g, program := .decodeTask :: s.host.program } }
    (s.host.engine = .idle → s.seq.busy = false →
      hostOp .decodeTask s = .next (goOn { s with pend := false } s.host.data .pull)) ∧
    (s.host.engine = .decoding .pull → s.seq.busy = false →
      ∃ t, exec .pullFrame s = .next t ∧ hostOp .decodeTask s = .next (goOn t s.host.data .wait)) ∧
    (s.host.engine = .decoding .wait →
      hostOp .decodeTask s = .next (goOn s s.statusWord (if s.seq.busy then .wait else .read))) ∧
    (s.host.engine = .decoding .read →
      hostOp .decodeTask s = .next (goOn s s.result (.dispatch (s.result.extractLsb' 0 8))))

/-- The dispatch of a decode's frame makes at most one event of it, a `reportKey` with one `sync`, and leaves the engine
Idle, whatever the frame; it makes no access, and nothing but the host's sink and engine changes (file 45 R186, R189). -/
def Obligations.Dispatch_emits_at_most_one_event : Prop :=
  ∀ (s : State) (v : Byte), s.host.engine = .decoding (.dispatch v) →
    s.opAccess .decodeTask = none ∧
    ∃ calls,
      hostOp .decodeTask s = .next { s with host := { s.host with sink := s.host.sink ++ calls, engine := .idle } } ∧
      calls = consume s.host.consumer v ∧ (calls = [] ∨ ∃ kc pressed, calls = [.reportKey kc pressed, .sync])

/-- Whatever the step, the engine moves only in a step of the decode task and only along a decode, and the sink is called
only by the dispatch that ends one: so every frame reported is one that its own decode has read, and it is reported once
(file 45 R189). A read while `rst_n` is asserted gives the frame 0. The stages are the model's choice (log entry 14). -/
def Obligations.Engine_moves_only_along_a_decode : Prop :=
  ∀ s t : State, step s = .next t →
    (t.host.engine ≠ s.host.engine → s.decodeTurn ∧
      match s.host.engine with
      | .idle => t.host.engine = .decoding .pull
      | .decoding .pull => t.host.engine = .decoding .wait
      | .decoding .wait => t.host.engine = .decoding .read ∧ (s.rstN = true → s.seq.busy = false)
      | .decoding .read =>
          t.host.engine = .decoding (.dispatch (if s.rstN then s.result.extractLsb' 0 8 else 0#8))
      | .decoding (.dispatch _) => t.host.engine = .idle) ∧
    (t.host.sink ≠ s.host.sink → s.decodeTurn ∧ ∃ v, s.host.engine = .decoding (.dispatch v) ∧
      t.host.engine = .idle ∧ t.host.sink = s.host.sink ++ consume s.host.consumer v)

/-! ### Reset -/

/-- A step that asserts `rst_n` leaves every element of the block at its value of R39, whatever was in progress, and
`ext` as the environment has it (file 10 R39, file 70 R230). -/
def Obligations.Block_reset_values : Prop :=
  ∀ s : State, s.params.wf = true → s.nextTurn = .rstN false →
    ∃ t, step s = .next t ∧
      (∀ l, t.lines.get l = ⟨.inp, false⟩) ∧ t.ext = s.ext ∧ t.seq.busy = false ∧ t.result = 0#32 ∧
      t.edgeEn = false ∧ t.pend = false ∧ t.fault = false ∧ t.fcause = 0#4 ∧
      t.statusWord = 0#32 ∧ t.linesWord = 0#32 ∧ t.irqOut = false ∧ t.rstN = false

/-- Right after reset, for every value of the parameters, every element holds its value of R39 and the machine is as the
invariant asks (file 10 R39). -/
def Obligations.Reset_state : Prop :=
  ∀ p : Params,
    (∀ l, ((State.resetOf p).lines.get l) = ⟨.inp, false⟩) ∧ (State.resetOf p).seq.busy = false ∧
    (State.resetOf p).result = 0#32 ∧ (State.resetOf p).statusWord = 0#32 ∧ (State.resetOf p).linesWord = 0#32 ∧
    (State.resetOf p).irqOut = false ∧ (State.resetOf p).edgeEn = false ∧ (State.resetOf p).Inv

/-- While `rst_n` is asserted every host read of the window returns 0, every host write is ignored without a fault, the
edge detector is held off, and ENV may still change `ext[L]` (file 70 R231). -/
def Obligations.Accesses_during_reset : Prop :=
  ∀ (s : State) (off n : Nat) (v : Word), s.rstN = false → off < 16 →
    access (.read (s.params.base + off) n) s = .next { s with host := { s.host with data := 0#32 } } ∧
    access (.write (s.params.base + off) n v) s = .next s ∧
    s.edgeDetect = s ∧
    (∀ l b, performTurn (.env l b) s = .next { s with ext := s.ext.put l b })

/-- A block with a zero or repeated pin identifier gets no step; every other keeps its parameters in every step (file 00
R10, file 10 R38). -/
def Obligations.Pins_checked_and_parameters_kept : Prop :=
  (∀ s : State, (∃ l, s.params.pin.get l = 0) ∨ (∃ l m, l ≠ m ∧ s.params.pin.get l = s.params.pin.get m) →
    step s = .refused .badPinSet) ∧
  (∀ s t : State, step s = .next t → t.params = s.params ∧ (∀ l, s.params.pin.get l ≠ 0) ∧
    ∀ l m, l ≠ m → s.params.pin.get l ≠ s.params.pin.get m)

/-! ### SEQ -/

/-- SEQ's action step: the four actions on the lines and ACC, the index advanced and the wait begun, and nothing else
changed (file 40 R102, R104). -/
def Obligations.Seq_action_step : Prop :=
  ∀ (s : State) (m : MicroStep), s.rstN = true → s.seq.busy = true → s.seq.wait = .none →
    s.seq.list[s.seq.k]? = some m →
    ∃ t, performTurn .seq s = .next t ∧
      t = { s with
        lines := t.lines, acc := t.acc
        seq := { s.seq with k := s.seq.k + 1, wait := m.wait, since := s.now } } ∧
      (match m.action with
        | .cfgOut l v => t.lines = s.lines.put l ⟨.out, v⟩ ∧ t.acc = s.acc
        | .cfgIn l => t.lines = s.lines.put l ⟨.inp, (s.lines.get l).lat⟩ ∧ t.acc = s.acc
        | .drive l v => t.lines = s.lines.put l ⟨(s.lines.get l).dir, v⟩ ∧ t.acc = s.acc
        | .sample b => t.lines = s.lines ∧
            ∀ i : Fin 8, t.acc.getLsbD i = (s.acc.getLsbD i || (decide (i = b) && s.pin .data)))

/-- SEQ's finish step: PULL_FRAME copies ACC to RESULT, any other command leaves RESULT, BUSY is cleared and nothing else
changes (file 40 R103). -/
def Obligations.Seq_finish_step : Prop :=
  ∀ s : State, s.rstN = true → s.seq.busy = true → s.seq.wait = .none → s.seq.k = s.seq.list.length →
    performTurn .seq s = .next { s with
      result := if s.seq.cmd = .pullFrame then s.acc.zeroExtend 32 else s.result
      seq := { s.seq with busy := false } }

/-- A wait ends no earlier than its kind's duration after it began, whatever the step, and the step that ends it changes
no line and not ACC (file 10 R30, file 70 R242). That it ends at a turn of its own in a model that keeps time is log entry
3. -/
def Obligations.Wait_is_a_lower_bound : Prop :=
  ∀ s t : State, step s = .next t → s.seq.busy = true → s.seq.wait ≠ .none → t.rstN = true →
    t.seq = s.seq ∨
    (s.nextTurn = .waitEnd ∧ t.seq = { s.seq with wait := .none } ∧ t.lines = s.lines ∧ t.acc = s.acc ∧
      s.seq.since + (match s.seq.wait with
        | .none => 0 | .settle => s.params.tSettle | .rst => s.params.tRst) ≤ s.now)

/-- In every micro-step list a command is accepted with, each CfgOut, CfgIn and Drive has wait kind SETTLE, the drives of
RESET_PULSE have RST, and each Sample has NONE (file 40 R105). -/
def Obligations.Every_transition_settles : Prop :=
  ∀ (i : Instr) (s₀ s : State), Accepted i s₀ s → ∀ m ∈ s.seq.list,
    m.wait = match m.action with
      | .sample _ => .none
      | _ => if i = .resetPulse then .rst else .settle

/-! ### Invariants of every step -/

/-- Every step keeps the invariant: FAULT and FCAUSE agree, RESULT[31:8] is 0, the command in progress runs its own list
within its bounds, every Drive finds its line OUT and every Sample DATA IN, `edge.prev` follows `pin(IRQ)` while enabled,
and `rst_n` holds the block in its reset state. -/
def Obligations.Step_keeps_invariant : Prop :=
  ∀ s t : State, s.Inv → step s = .next t → t.Inv

/-- PEND rises exactly at a fall of `pin(IRQ)` between the ends of two consecutive steps, while detection is enabled, and
never while it is disabled (file 42 R170, R171). -/
def Obligations.Pend_rises_exactly_on_falling_edge : Prop :=
  ∀ s t : State, s.Inv → step s = .next t →
    (s.edgeEn = true → t.edgeEn = true →
      (s.pin .irq = true → t.pin .irq = false → t.pend = true) ∧
      (s.pend = false → t.pend = true → s.pin .irq = true ∧ t.pin .irq = false)) ∧
    (s.edgeEn = false → t.pend = true → s.pend = true)

/-- PEND falls only in a block reset or in a step whose HOST issues TAKE to an idle block (file 42 R165, R166, file 60
R206). -/
def Obligations.Pend_falls_only_by_take : Prop :=
  ∀ s t : State, step s = .next t → s.pend = true → t.pend = false →
    s.nextTurn = .rstN false ∨ (s.hostWrites 0x00008000#32 ∧ s.seq.busy = false)

/-- RESULT changes only in a block reset, in a step whose HOST issues READ of an IN line to an idle block, and in the
finish of a PULL_FRAME (file 10 R28). -/
def Obligations.Result_written_only_by_read_and_pull : Prop :=
  ∀ s t : State, step s = .next t → t.result ≠ s.result →
    s.nextTurn = .rstN false ∨
    (∃ l, s.hostWrites (encode (.read l)) ∧ s.seq.busy = false ∧ (s.lines.get l).dir = .inp) ∨
    (s.nextTurn = .seq ∧ s.seq.busy = true ∧ s.seq.cmd = .pullFrame ∧ s.seq.k = s.seq.list.length ∧
      t.seq.busy = false)

/-- A line's direction or latch changes only in a block reset, in an action step of SEQ, and in a step whose HOST issues
LATCH of an IN line to an idle block (file 10 R22, R23). -/
def Obligations.Lines_written_only_by_commands : Prop :=
  ∀ s t : State, step s = .next t → t.lines ≠ s.lines →
    s.nextTurn = .rstN false ∨
    (s.nextTurn = .seq ∧ s.seq.busy = true ∧ s.seq.wait = .none ∧
      ∃ m, s.seq.list[s.seq.k]? = some m ∧ t.lines = lineEffect s.lines m.action) ∨
    (∃ l v, s.hostWrites (encode (.latch l v)) ∧ s.seq.busy = false ∧ (s.lines.get l).dir = .inp ∧
      t.lines = s.lines.put l ⟨.inp, v⟩)

/-- A step of ENV changes one `ext[L]` and, through the edge detector, PEND and `edge.prev`, and nothing else; the pin of
a line the block drives does not move (file 10 R24, R26). -/
def Obligations.Env_step_is_isolated : Prop :=
  ∀ (s : State) (l : Line) (v : Level), s.params.wf = true → s.nextTurn = .env l v →
    ∃ p e, step s = .next { s.popTurn with ext := s.ext.put l v, pend := p, edgePrev := e } ∧
      (s.pend = true → p = true) ∧
      ∀ m t, step s = .next t → ((s.lines.get m).dir = .out ∨ m ≠ l) → t.pin m = s.pin m

/-! ### Whole commands -/

/-- Whatever turns HOST, ENV and CLOCK take meanwhile, SEQ performs the micro-steps of an accepted command exactly in
order: after any number of steps inside the command the lines are what its first `seq.k` actions make of the lines it
was accepted with, and at the finish all its actions have been performed (file 40 R101 to R104, file 20 R71). -/
def Obligations.Command_runs_its_list_in_order : Prop :=
  ∀ (i : Instr) (n : Nat) (s₀ s t : State), Accepted i s₀ s → WithinCommand n s t →
    t.lines = lineEffects s₀.lines ((microSteps i).take t.seq.k) ∧
    (t.seq.busy = false → t.seq.k = (microSteps i).length) ∧
    (t.seq.busy = true → t.seq.cmd = i ∧ t.seq.list = microSteps i ∧ t.result = s₀.result)

/-- At its finish a line-driver command has made of its line what it says, and of no other line anything: CFG_OUT the
direction OUT with its level, CFG_IN the direction IN with the latch kept, SET and LATCH (on an OUT line) the level; RESULT
is unchanged (file 40 R107 to R110). -/
def Obligations.Line_commands_end_state : Prop :=
  ∀ (l : Line) (v : Level) (i : Instr) (n : Nat) (s₀ s t : State), Accepted i s₀ s → WithinCommand n s t →
    t.seq.busy = false →
    (i = .cfgOut l v → t.lines = s₀.lines.put l ⟨.out, v⟩ ∧ t.result = s₀.result) ∧
    (i = .cfgIn l → t.lines = s₀.lines.put l ⟨.inp, (s₀.lines.get l).lat⟩ ∧ t.result = s₀.result) ∧
    (i = .set l v → t.lines = s₀.lines.put l ⟨.out, v⟩ ∧ t.result = s₀.result) ∧
    (i = .latch l v → t.lines = s₀.lines.put l ⟨.out, v⟩ ∧ t.result = s₀.result)

/-- A second CFG_OUT or CFG_IN of one line with the same operands leaves every line, RESULT and ACC as the first left
them (file 40 R113). -/
def Obligations.Configuration_is_idempotent : Prop :=
  ∀ (l : Line) (v : Level) (i : Instr) (n m : Nat) (s₀ s t s' t' : State), i = .cfgOut l v ∨ i = .cfgIn l →
    Accepted i s₀ s → WithinCommand n s t → t.seq.busy = false →
    Accepted i t s' → WithinCommand m s' t' → t'.seq.busy = false →
    t'.lines = t.lines ∧ t'.result = t.result ∧ t'.acc = t.acc ∧
    (i = .cfgOut l v → t.lines.get l = ⟨.out, v⟩) ∧
    (i = .cfgIn l → t.lines.get l = ⟨.inp, (s₀.lines.get l).lat⟩)

/-- The value of a frame: at the finish of a PULL_FRAME, however its steps were interleaved with those of HOST, ENV and
CLOCK, SEQ has sampled `pin(DATA)` exactly eight times, at entries 6, 9, ..., 27, and RESULT is those eight levels, the
first in bit 7, whatever the state it was issued in (file 41 R137, R135, file 20 R74). -/
def Obligations.PullFrame_result_is_the_samples : Prop :=
  ∀ (n : Nat) (s₀ s t : State), Accepted .pullFrame s₀ s → WithinCommand n s t → t.seq.busy = false →
    ∃ v0 v1 v2 v3 v4 v5 v6 v7 : Level,
      sampledLevels (visited n s) = [v0, v1, v2, v3, v4, v5, v6, v7] ∧
      ((visited n s).filter State.samplesNow).map (fun u => u.seq.k) = [6, 9, 12, 15, 18, 21, 24, 27] ∧
      t.result.toNat = v0.toNat * 128 + v1.toNat * 64 + v2.toNat * 32 + v3.toNat * 16 + v4.toNat * 8 +
        v5.toNat * 4 + v6.toNat * 2 + v7.toNat

/-- The end state of a PULL_FRAME: DATA IN with latch 0, CLK OUT with latch 1, the other lines untouched, and LINES reads
as R140 says (file 41 R140, R145). -/
def Obligations.PullFrame_end_state : Prop :=
  ∀ (n : Nat) (s₀ s t : State), Accepted .pullFrame s₀ s → WithinCommand n s t → t.seq.busy = false →
    t.lines.data = ⟨.inp, false⟩ ∧ t.lines.clk = ⟨.out, true⟩ ∧
    t.lines.irq = s₀.lines.irq ∧ t.lines.rst = s₀.lines.rst ∧
    t.linesWord = (s₀.linesWord &&& 0xF0#32) ||| 0x0C#32

/-- The pin levels after each entry of PULL_LIST: `pin(CLK)` from entry 1 on, and `pin(DATA)`, the block's 0 or the
environment's level; so CLK falls at entries 2, 5, 8, ..., 26 and 30 and nowhere else (file 41 R142). `t.seq.k` entries have
been performed. -/
def Obligations.PullFrame_pins_after_each_entry : Prop :=
  ∀ (n : Nat) (s₀ s t : State), Accepted .pullFrame s₀ s → WithinCommand n s t →
    (2 ≤ t.seq.k → (t.pin .clk = false ↔ t.seq.k ∈ [3, 4, 6, 7, 9, 10, 12, 13, 15, 16, 18, 19, 21, 22, 24, 25, 27, 28, 31, 32])) ∧
    (t.seq.k ∈ [1, 2, 3, 30, 31] → t.pin .data = false) ∧
    (4 ≤ t.seq.k → t.seq.k ≤ 29 ∨ 32 ≤ t.seq.k → t.pin .data = t.ext.data) ∧
    t.seq.k ≤ 33

/-- The reset pulse on the wire: RST is driven 1, then 0, then 1, each after the one before it, no other line is touched,
and it ends at 1 with RESULT unchanged (file 42 R160, R161, R162). -/
def Obligations.ResetPulse_waveform : Prop :=
  ∀ (n : Nat) (s₀ s t : State), Accepted .resetPulse s₀ s → WithinCommand n s t →
    t.lines = s₀.lines.put .rst ⟨.out, t.pin .rst⟩ ∧
    (t.seq.k = 0 → t.pin .rst = s₀.pin .rst) ∧ (t.seq.k = 1 → t.pin .rst = true) ∧
    (t.seq.k = 2 → t.pin .rst = false) ∧ (t.seq.k = 3 → t.pin .rst = true) ∧ t.seq.k ≤ 3 ∧
    (t.seq.busy = false → t.seq.k = 3) ∧ t.result = s₀.result ∧ t.acc = s₀.acc

/-- The least time from issue to BUSY = 0: T_SETTLE for CFG_OUT, CFG_IN, SET, and LATCH on an OUT line, `25 * T_SETTLE`
for PULL_FRAME, `3 * T_RST` for RESET_PULSE, for every schedule; NOP, READ, TAKE, EDGE_EN, and LATCH on an IN line complete
in the issuing step (file 41 R138, file 42 R161, file 70 R245). -/
def Obligations.Commands_take_their_minimum_time : Prop :=
  (∀ (i : Instr) (n : Nat) (s₀ s t : State), Accepted i s₀ s → WithinCommand n s t → t.seq.busy = false →
    s₀.minimumTime i = (match i with
      | .pullFrame => 25 * s₀.params.tSettle
      | .resetPulse => 3 * s₀.params.tRst
      | _ => s₀.params.tSettle) ∧
    s₀.now + s₀.minimumTime i ≤ t.now) ∧
  (∀ (i : Instr) (l : Line) (v : Level) (s₀ : State), s₀.seq.busy = false →
    i = .nop ∨ i = .take ∨ i = .edgeEn v ∨
      (s₀.lines.get l).dir = .inp ∧ (i = .read l ∨ i = .latch l v) →
    s₀.minimumTime i = 0 ∧ ∃ t, exec i s₀ = .next t ∧ t.seq.busy = false ∧ t.now = s₀.now)

/-- Nothing delays a command but its waits: the number of SEQ steps and wait ends (turns of their own, log entry 3) still
ahead never grows, falls by one with each, and is 59 for PULL_FRAME, 7 for RESET_PULSE and 3 for a line-driver command
at acceptance (file 70 R246, file 95 V2, V3.12, V4.5). -/
def Obligations.Progress_is_monotone : Prop :=
  (∀ s t : State, s.Inv → step s = .next t → s.seq.busy = true → s.rstN = true → t.rstN = true →
    t.remaining ≤ s.remaining ∧
    (s.nextTurn = .seq → s.seq.wait = .none → t.remaining + 1 = s.remaining) ∧
    (s.nextTurn = .waitEnd → s.seq.wait ≠ .none → s.waitOver = true → t.remaining + 1 = s.remaining)) ∧
  (∀ (i : Instr) (s₀ s : State), Accepted i s₀ s →
    s.remaining = match i with
      | .pullFrame => 59
      | .resetPulse => 7
      | _ => 3)

/-- Every command in progress can finish with turns of SEQ, CLOCK and wait ends (log entry 3) alone, from every state of
the invariant (file 70 R246, file 10 R30). That it does finish needs fairness, which the schedule is not given (log entry
19). -/
def Obligations.Every_command_can_finish : Prop :=
  ∀ s : State, s.Inv → s.params.wf = true → s.rstN = true → s.seq.busy = true →
    ∃ (ts : List Turn) (t : State),
      (∀ x ∈ ts, x = .seq ∨ x = .waitEnd ∨ ∃ dt, x = .clock dt) ∧
      runSteps ts.length { s with agenda := ts } = .next t ∧ t.seq.busy = false

/-! ### The frame consumer -/

/-- Press or release, row and column of every frame (file 45 R181, R182, R183). -/
def Obligations.Frame_fields : Prop :=
  ∀ v : Byte,
    framePressed v = decide (v.toNat < 128) ∧ frameRow v = (v.toNat / 16) % 8 ∧
    frameCol v = (if v.toNat % 16 = 0 then 0 else v.toNat % 16 - 1) ∧ frameRow v ≤ 7 ∧ frameCol v ≤ 14

/-- For an in-range pair the index is `2 * (row * COLS + col)`, even, at most `2 * ROWS * COLS - 2`, and names an entry
of KEYMAP (file 45 R185). -/
def Obligations.Lookup_stays_in_keymap : Prop :=
  ∀ (c : ConsumerParams) (row col : Nat), c.wf = true → row < c.rows → col < c.cols →
    keyIndex c row col = 2 * (row * c.cols + col) ∧ keyIndex c row col % 2 = 0 ∧
    keyIndex c row col ≤ 2 * c.rows * c.cols - 2 ∧ keyIndex c row col < c.keymap.length ∧
    ∃ kc, c.keymap[keyIndex c row col]? = some kc ∧ keycodeAt c (keyIndex c row col) = some kc

/-- An in-range frame with a known keycode is reported once, with one sync; one that is out of range or whose keycode is
KEY_UNKNOWN is reported not at all (file 45 R184, R186). -/
def Obligations.Frame_emission : Prop :=
  ∀ (c : ConsumerParams) (v : Byte), c.wf = true →
    (frameRow v < c.rows → frameCol v < c.cols →
      ∃ kc, c.keymap[2 * (frameRow v * c.cols + frameCol v)]? = some kc ∧
        consume c v = if kc = c.keyUnknown then [] else [.reportKey kc (framePressed v), .sync]) ∧
    (c.rows ≤ frameRow v ∨ c.cols ≤ frameCol v → consume c v = [])

/-- The capability set is every keycode at an even index of KEYMAP but KEY_UNKNOWN, and every keycode the consumer ever
reports is in it (file 45 R188, R185). -/
def Obligations.Capability_set : Prop :=
  ∀ c : ConsumerParams,
    (∀ kc, kc ∈ capabilitySet c ↔ kc ≠ c.keyUnknown ∧ ∃ j, c.keymap[2 * j]? = some kc) ∧
    (∀ v kc p, SinkCall.reportKey kc p ∈ consume c v → kc ∈ capabilitySet c)
end

