-- ==== Sys2Proof/Laws/Decode.lean ====
section
/-! SUPPORT. The command word and its fields: an encoded word's fields read back, and a word with its reserved bits 0 is
the encoding of its fields. -/

namespace Sys2Proof

theorem fieldOp_enc (op : BitVec 4) (ln : BitVec 2) (lv : Level) : fieldOp (enc op ln lv) = op := by
  revert op ln lv; decide

theorem fieldLn_enc (op : BitVec 4) (ln : BitVec 2) (lv : Level) : fieldLn (enc op ln lv) = ln := by
  revert op ln lv; decide

theorem fieldLv_enc (op : BitVec 4) (ln : BitVec 2) (lv : Level) : fieldLv (enc op ln lv) = lv := by
  revert op ln lv; decide

theorem reservedZero_enc (op : BitVec 4) (ln : BitVec 2) (lv : Level) : reservedZero (enc op ln lv) = true := by
  revert op ln lv; decide

/-- Decoding an encoded word is decoding its fields. -/
theorem decode_enc (op : BitVec 4) (ln : BitVec 2) (lv : Level) : decode (enc op ln lv) = decodeFields op ln lv := by
  simp [decode, fieldOp_enc, fieldLn_enc, fieldLv_enc, reservedZero_enc]

/-- The reserved bits one by one. -/
theorem reservedZero_bit {w : Word} (h : reservedZero w = true) :
    (∀ i, i < 16 → w.getLsbD (16 + i) = false) ∧ (∀ i, i < 2 → w.getLsbD (10 + i) = false) ∧
    (∀ i, i < 7 → w.getLsbD (1 + i) = false) := by
  simp only [reservedZero, Bool.and_eq_true, beq_iff_eq] at h
  obtain ⟨⟨h1, h2⟩, h3⟩ := h
  refine ⟨fun i hi => ?_, fun i hi => ?_, fun i hi => ?_⟩
  · have := congrArg (fun x => x.getLsbD i) h1; simpa [hi] using this
  · have := congrArg (fun x => x.getLsbD i) h2; simpa [hi] using this
  · have := congrArg (fun x => x.getLsbD i) h3; simpa [hi] using this

/-- A word whose reserved bits are 0 is the encoding of its own fields. -/
theorem eq_enc_of_reservedZero {w : Word} (h : reservedZero w = true) :
    w = enc (fieldOp w) (fieldLn w) (fieldLv w) := by
  obtain ⟨g1, g2, g3⟩ := reservedZero_bit h
  apply BitVec.eq_of_getLsbD_eq
  intro i hi
  have hr : (16 ≤ i → w.getLsbD i = false) ∧ (10 ≤ i → i < 12 → w.getLsbD i = false) ∧
      (1 ≤ i → i < 8 → w.getLsbD i = false) := by
    refine ⟨fun h => ?_, fun h h' => ?_, fun h h' => ?_⟩
    · have := g1 (i - 16) (by omega); rwa [show 16 + (i - 16) = i by omega] at this
    · have := g2 (i - 10) (by omega); rwa [show 10 + (i - 10) = i by omega] at this
    · have := g3 (i - 1) (by omega); rwa [show 1 + (i - 1) = i by omega] at this
  obtain ⟨r1, r2, r3⟩ := hr
  simp only [enc, fieldOp, fieldLn, fieldLv]
  interval_cases i <;>
    simp only [BitVec.zeroExtend, BitVec.getLsbD_setWidth, BitVec.getLsbD_append, BitVec.getLsbD_extractLsb',
      BitVec.getLsbD_zero, BitVec.getLsbD_ofBool] <;>
    simp_all

end Sys2Proof
end

