-- ==== Sys2Proof/Laws/State.lean ====
section
/-! SUPPORT. What each update of the state leaves in each field: one lemma per field per update, all by `rfl`; the
conditional updates (the edge detector, taking a turn) field by field after them. -/

namespace Sys2Proof.Machine


/-! ### setLine -/

@[simp] theorem State.setLine_lines (s : State) (l : Line) (x : LineState) : (s.setLine l x).lines = s.lines.put l x := rfl
@[simp] theorem State.setLine_ext (s : State) (l : Line) (x : LineState) : (s.setLine l x).ext = s.ext := rfl
@[simp] theorem State.setLine_result (s : State) (l : Line) (x : LineState) : (s.setLine l x).result = s.result := rfl
@[simp] theorem State.setLine_seq (s : State) (l : Line) (x : LineState) : (s.setLine l x).seq = s.seq := rfl
@[simp] theorem State.setLine_acc (s : State) (l : Line) (x : LineState) : (s.setLine l x).acc = s.acc := rfl
@[simp] theorem State.setLine_edgeEn (s : State) (l : Line) (x : LineState) : (s.setLine l x).edgeEn = s.edgeEn := rfl
@[simp] theorem State.setLine_edgePrev (s : State) (l : Line) (x : LineState) : (s.setLine l x).edgePrev = s.edgePrev := rfl
@[simp] theorem State.setLine_pend (s : State) (l : Line) (x : LineState) : (s.setLine l x).pend = s.pend := rfl
@[simp] theorem State.setLine_fault (s : State) (l : Line) (x : LineState) : (s.setLine l x).fault = s.fault := rfl
@[simp] theorem State.setLine_fcause (s : State) (l : Line) (x : LineState) : (s.setLine l x).fcause = s.fcause := rfl
@[simp] theorem State.setLine_rstN (s : State) (l : Line) (x : LineState) : (s.setLine l x).rstN = s.rstN := rfl
@[simp] theorem State.setLine_now (s : State) (l : Line) (x : LineState) : (s.setLine l x).now = s.now := rfl
@[simp] theorem State.setLine_params (s : State) (l : Line) (x : LineState) : (s.setLine l x).params = s.params := rfl
@[simp] theorem State.setLine_host (s : State) (l : Line) (x : LineState) : (s.setLine l x).host = s.host := rfl
@[simp] theorem State.setLine_agenda (s : State) (l : Line) (x : LineState) : (s.setLine l x).agenda = s.agenda := rfl
@[simp] theorem State.setLine_draws (s : State) (l : Line) (x : LineState) : (s.setLine l x).draws = s.draws := rfl

/-! ### setLatch -/

@[simp] theorem State.setLatch_lines (s : State) (l : Line) (v : Level) : (s.setLatch l v).lines = s.lines.put l { s.line l with lat := v } := rfl
@[simp] theorem State.setLatch_ext (s : State) (l : Line) (v : Level) : (s.setLatch l v).ext = s.ext := rfl
@[simp] theorem State.setLatch_result (s : State) (l : Line) (v : Level) : (s.setLatch l v).result = s.result := rfl
@[simp] theorem State.setLatch_seq (s : State) (l : Line) (v : Level) : (s.setLatch l v).seq = s.seq := rfl
@[simp] theorem State.setLatch_acc (s : State) (l : Line) (v : Level) : (s.setLatch l v).acc = s.acc := rfl
@[simp] theorem State.setLatch_edgeEn (s : State) (l : Line) (v : Level) : (s.setLatch l v).edgeEn = s.edgeEn := rfl
@[simp] theorem State.setLatch_edgePrev (s : State) (l : Line) (v : Level) : (s.setLatch l v).edgePrev = s.edgePrev := rfl
@[simp] theorem State.setLatch_pend (s : State) (l : Line) (v : Level) : (s.setLatch l v).pend = s.pend := rfl
@[simp] theorem State.setLatch_fault (s : State) (l : Line) (v : Level) : (s.setLatch l v).fault = s.fault := rfl
@[simp] theorem State.setLatch_fcause (s : State) (l : Line) (v : Level) : (s.setLatch l v).fcause = s.fcause := rfl
@[simp] theorem State.setLatch_rstN (s : State) (l : Line) (v : Level) : (s.setLatch l v).rstN = s.rstN := rfl
@[simp] theorem State.setLatch_now (s : State) (l : Line) (v : Level) : (s.setLatch l v).now = s.now := rfl
@[simp] theorem State.setLatch_params (s : State) (l : Line) (v : Level) : (s.setLatch l v).params = s.params := rfl
@[simp] theorem State.setLatch_host (s : State) (l : Line) (v : Level) : (s.setLatch l v).host = s.host := rfl
@[simp] theorem State.setLatch_agenda (s : State) (l : Line) (v : Level) : (s.setLatch l v).agenda = s.agenda := rfl
@[simp] theorem State.setLatch_draws (s : State) (l : Line) (v : Level) : (s.setLatch l v).draws = s.draws := rfl

/-! ### setDir -/

@[simp] theorem State.setDir_lines (s : State) (l : Line) (d : Dir) : (s.setDir l d).lines = s.lines.put l { s.line l with dir := d } := rfl
@[simp] theorem State.setDir_ext (s : State) (l : Line) (d : Dir) : (s.setDir l d).ext = s.ext := rfl
@[simp] theorem State.setDir_result (s : State) (l : Line) (d : Dir) : (s.setDir l d).result = s.result := rfl
@[simp] theorem State.setDir_seq (s : State) (l : Line) (d : Dir) : (s.setDir l d).seq = s.seq := rfl
@[simp] theorem State.setDir_acc (s : State) (l : Line) (d : Dir) : (s.setDir l d).acc = s.acc := rfl
@[simp] theorem State.setDir_edgeEn (s : State) (l : Line) (d : Dir) : (s.setDir l d).edgeEn = s.edgeEn := rfl
@[simp] theorem State.setDir_edgePrev (s : State) (l : Line) (d : Dir) : (s.setDir l d).edgePrev = s.edgePrev := rfl
@[simp] theorem State.setDir_pend (s : State) (l : Line) (d : Dir) : (s.setDir l d).pend = s.pend := rfl
@[simp] theorem State.setDir_fault (s : State) (l : Line) (d : Dir) : (s.setDir l d).fault = s.fault := rfl
@[simp] theorem State.setDir_fcause (s : State) (l : Line) (d : Dir) : (s.setDir l d).fcause = s.fcause := rfl
@[simp] theorem State.setDir_rstN (s : State) (l : Line) (d : Dir) : (s.setDir l d).rstN = s.rstN := rfl
@[simp] theorem State.setDir_now (s : State) (l : Line) (d : Dir) : (s.setDir l d).now = s.now := rfl
@[simp] theorem State.setDir_params (s : State) (l : Line) (d : Dir) : (s.setDir l d).params = s.params := rfl
@[simp] theorem State.setDir_host (s : State) (l : Line) (d : Dir) : (s.setDir l d).host = s.host := rfl
@[simp] theorem State.setDir_agenda (s : State) (l : Line) (d : Dir) : (s.setDir l d).agenda = s.agenda := rfl
@[simp] theorem State.setDir_draws (s : State) (l : Line) (d : Dir) : (s.setDir l d).draws = s.draws := rfl

/-! ### setExt -/

@[simp] theorem State.setExt_lines (s : State) (l : Line) (v : Level) : (s.setExt l v).lines = s.lines := rfl
@[simp] theorem State.setExt_ext (s : State) (l : Line) (v : Level) : (s.setExt l v).ext = s.ext.put l v := rfl
@[simp] theorem State.setExt_result (s : State) (l : Line) (v : Level) : (s.setExt l v).result = s.result := rfl
@[simp] theorem State.setExt_seq (s : State) (l : Line) (v : Level) : (s.setExt l v).seq = s.seq := rfl
@[simp] theorem State.setExt_acc (s : State) (l : Line) (v : Level) : (s.setExt l v).acc = s.acc := rfl
@[simp] theorem State.setExt_edgeEn (s : State) (l : Line) (v : Level) : (s.setExt l v).edgeEn = s.edgeEn := rfl
@[simp] theorem State.setExt_edgePrev (s : State) (l : Line) (v : Level) : (s.setExt l v).edgePrev = s.edgePrev := rfl
@[simp] theorem State.setExt_pend (s : State) (l : Line) (v : Level) : (s.setExt l v).pend = s.pend := rfl
@[simp] theorem State.setExt_fault (s : State) (l : Line) (v : Level) : (s.setExt l v).fault = s.fault := rfl
@[simp] theorem State.setExt_fcause (s : State) (l : Line) (v : Level) : (s.setExt l v).fcause = s.fcause := rfl
@[simp] theorem State.setExt_rstN (s : State) (l : Line) (v : Level) : (s.setExt l v).rstN = s.rstN := rfl
@[simp] theorem State.setExt_now (s : State) (l : Line) (v : Level) : (s.setExt l v).now = s.now := rfl
@[simp] theorem State.setExt_params (s : State) (l : Line) (v : Level) : (s.setExt l v).params = s.params := rfl
@[simp] theorem State.setExt_host (s : State) (l : Line) (v : Level) : (s.setExt l v).host = s.host := rfl
@[simp] theorem State.setExt_agenda (s : State) (l : Line) (v : Level) : (s.setExt l v).agenda = s.agenda := rfl
@[simp] theorem State.setExt_draws (s : State) (l : Line) (v : Level) : (s.setExt l v).draws = s.draws := rfl

/-! ### setResult -/

@[simp] theorem State.setResult_lines (s : State) (w : Word) : (s.setResult w).lines = s.lines := rfl
@[simp] theorem State.setResult_ext (s : State) (w : Word) : (s.setResult w).ext = s.ext := rfl
@[simp] theorem State.setResult_result (s : State) (w : Word) : (s.setResult w).result = w := rfl
@[simp] theorem State.setResult_seq (s : State) (w : Word) : (s.setResult w).seq = s.seq := rfl
@[simp] theorem State.setResult_acc (s : State) (w : Word) : (s.setResult w).acc = s.acc := rfl
@[simp] theorem State.setResult_edgeEn (s : State) (w : Word) : (s.setResult w).edgeEn = s.edgeEn := rfl
@[simp] theorem State.setResult_edgePrev (s : State) (w : Word) : (s.setResult w).edgePrev = s.edgePrev := rfl
@[simp] theorem State.setResult_pend (s : State) (w : Word) : (s.setResult w).pend = s.pend := rfl
@[simp] theorem State.setResult_fault (s : State) (w : Word) : (s.setResult w).fault = s.fault := rfl
@[simp] theorem State.setResult_fcause (s : State) (w : Word) : (s.setResult w).fcause = s.fcause := rfl
@[simp] theorem State.setResult_rstN (s : State) (w : Word) : (s.setResult w).rstN = s.rstN := rfl
@[simp] theorem State.setResult_now (s : State) (w : Word) : (s.setResult w).now = s.now := rfl
@[simp] theorem State.setResult_params (s : State) (w : Word) : (s.setResult w).params = s.params := rfl
@[simp] theorem State.setResult_host (s : State) (w : Word) : (s.setResult w).host = s.host := rfl
@[simp] theorem State.setResult_agenda (s : State) (w : Word) : (s.setResult w).agenda = s.agenda := rfl
@[simp] theorem State.setResult_draws (s : State) (w : Word) : (s.setResult w).draws = s.draws := rfl

/-! ### setAcc -/

@[simp] theorem State.setAcc_lines (s : State) (b : Byte) : (s.setAcc b).lines = s.lines := rfl
@[simp] theorem State.setAcc_ext (s : State) (b : Byte) : (s.setAcc b).ext = s.ext := rfl
@[simp] theorem State.setAcc_result (s : State) (b : Byte) : (s.setAcc b).result = s.result := rfl
@[simp] theorem State.setAcc_seq (s : State) (b : Byte) : (s.setAcc b).seq = s.seq := rfl
@[simp] theorem State.setAcc_acc (s : State) (b : Byte) : (s.setAcc b).acc = b := rfl
@[simp] theorem State.setAcc_edgeEn (s : State) (b : Byte) : (s.setAcc b).edgeEn = s.edgeEn := rfl
@[simp] theorem State.setAcc_edgePrev (s : State) (b : Byte) : (s.setAcc b).edgePrev = s.edgePrev := rfl
@[simp] theorem State.setAcc_pend (s : State) (b : Byte) : (s.setAcc b).pend = s.pend := rfl
@[simp] theorem State.setAcc_fault (s : State) (b : Byte) : (s.setAcc b).fault = s.fault := rfl
@[simp] theorem State.setAcc_fcause (s : State) (b : Byte) : (s.setAcc b).fcause = s.fcause := rfl
@[simp] theorem State.setAcc_rstN (s : State) (b : Byte) : (s.setAcc b).rstN = s.rstN := rfl
@[simp] theorem State.setAcc_now (s : State) (b : Byte) : (s.setAcc b).now = s.now := rfl
@[simp] theorem State.setAcc_params (s : State) (b : Byte) : (s.setAcc b).params = s.params := rfl
@[simp] theorem State.setAcc_host (s : State) (b : Byte) : (s.setAcc b).host = s.host := rfl
@[simp] theorem State.setAcc_agenda (s : State) (b : Byte) : (s.setAcc b).agenda = s.agenda := rfl
@[simp] theorem State.setAcc_draws (s : State) (b : Byte) : (s.setAcc b).draws = s.draws := rfl

/-! ### setPend -/

@[simp] theorem State.setPend_lines (s : State) (v : Bool) : (s.setPend v).lines = s.lines := rfl
@[simp] theorem State.setPend_ext (s : State) (v : Bool) : (s.setPend v).ext = s.ext := rfl
@[simp] theorem State.setPend_result (s : State) (v : Bool) : (s.setPend v).result = s.result := rfl
@[simp] theorem State.setPend_seq (s : State) (v : Bool) : (s.setPend v).seq = s.seq := rfl
@[simp] theorem State.setPend_acc (s : State) (v : Bool) : (s.setPend v).acc = s.acc := rfl
@[simp] theorem State.setPend_edgeEn (s : State) (v : Bool) : (s.setPend v).edgeEn = s.edgeEn := rfl
@[simp] theorem State.setPend_edgePrev (s : State) (v : Bool) : (s.setPend v).edgePrev = s.edgePrev := rfl
@[simp] theorem State.setPend_pend (s : State) (v : Bool) : (s.setPend v).pend = v := rfl
@[simp] theorem State.setPend_fault (s : State) (v : Bool) : (s.setPend v).fault = s.fault := rfl
@[simp] theorem State.setPend_fcause (s : State) (v : Bool) : (s.setPend v).fcause = s.fcause := rfl
@[simp] theorem State.setPend_rstN (s : State) (v : Bool) : (s.setPend v).rstN = s.rstN := rfl
@[simp] theorem State.setPend_now (s : State) (v : Bool) : (s.setPend v).now = s.now := rfl
@[simp] theorem State.setPend_params (s : State) (v : Bool) : (s.setPend v).params = s.params := rfl
@[simp] theorem State.setPend_host (s : State) (v : Bool) : (s.setPend v).host = s.host := rfl
@[simp] theorem State.setPend_agenda (s : State) (v : Bool) : (s.setPend v).agenda = s.agenda := rfl
@[simp] theorem State.setPend_draws (s : State) (v : Bool) : (s.setPend v).draws = s.draws := rfl

/-! ### setEdge -/

@[simp] theorem State.setEdge_lines (s : State) (en : Bool) (prev : Level) : (s.setEdge en prev).lines = s.lines := rfl
@[simp] theorem State.setEdge_ext (s : State) (en : Bool) (prev : Level) : (s.setEdge en prev).ext = s.ext := rfl
@[simp] theorem State.setEdge_result (s : State) (en : Bool) (prev : Level) : (s.setEdge en prev).result = s.result := rfl
@[simp] theorem State.setEdge_seq (s : State) (en : Bool) (prev : Level) : (s.setEdge en prev).seq = s.seq := rfl
@[simp] theorem State.setEdge_acc (s : State) (en : Bool) (prev : Level) : (s.setEdge en prev).acc = s.acc := rfl
@[simp] theorem State.setEdge_edgeEn (s : State) (en : Bool) (prev : Level) : (s.setEdge en prev).edgeEn = en := rfl
@[simp] theorem State.setEdge_edgePrev (s : State) (en : Bool) (prev : Level) : (s.setEdge en prev).edgePrev = prev := rfl
@[simp] theorem State.setEdge_pend (s : State) (en : Bool) (prev : Level) : (s.setEdge en prev).pend = s.pend := rfl
@[simp] theorem State.setEdge_fault (s : State) (en : Bool) (prev : Level) : (s.setEdge en prev).fault = s.fault := rfl
@[simp] theorem State.setEdge_fcause (s : State) (en : Bool) (prev : Level) : (s.setEdge en prev).fcause = s.fcause := rfl
@[simp] theorem State.setEdge_rstN (s : State) (en : Bool) (prev : Level) : (s.setEdge en prev).rstN = s.rstN := rfl
@[simp] theorem State.setEdge_now (s : State) (en : Bool) (prev : Level) : (s.setEdge en prev).now = s.now := rfl
@[simp] theorem State.setEdge_params (s : State) (en : Bool) (prev : Level) : (s.setEdge en prev).params = s.params := rfl
@[simp] theorem State.setEdge_host (s : State) (en : Bool) (prev : Level) : (s.setEdge en prev).host = s.host := rfl
@[simp] theorem State.setEdge_agenda (s : State) (en : Bool) (prev : Level) : (s.setEdge en prev).agenda = s.agenda := rfl
@[simp] theorem State.setEdge_draws (s : State) (en : Bool) (prev : Level) : (s.setEdge en prev).draws = s.draws := rfl

/-! ### setSeq -/

@[simp] theorem State.setSeq_lines (s : State) (q : Sequencer) : (s.setSeq q).lines = s.lines := rfl
@[simp] theorem State.setSeq_ext (s : State) (q : Sequencer) : (s.setSeq q).ext = s.ext := rfl
@[simp] theorem State.setSeq_result (s : State) (q : Sequencer) : (s.setSeq q).result = s.result := rfl
@[simp] theorem State.setSeq_seq (s : State) (q : Sequencer) : (s.setSeq q).seq = q := rfl
@[simp] theorem State.setSeq_acc (s : State) (q : Sequencer) : (s.setSeq q).acc = s.acc := rfl
@[simp] theorem State.setSeq_edgeEn (s : State) (q : Sequencer) : (s.setSeq q).edgeEn = s.edgeEn := rfl
@[simp] theorem State.setSeq_edgePrev (s : State) (q : Sequencer) : (s.setSeq q).edgePrev = s.edgePrev := rfl
@[simp] theorem State.setSeq_pend (s : State) (q : Sequencer) : (s.setSeq q).pend = s.pend := rfl
@[simp] theorem State.setSeq_fault (s : State) (q : Sequencer) : (s.setSeq q).fault = s.fault := rfl
@[simp] theorem State.setSeq_fcause (s : State) (q : Sequencer) : (s.setSeq q).fcause = s.fcause := rfl
@[simp] theorem State.setSeq_rstN (s : State) (q : Sequencer) : (s.setSeq q).rstN = s.rstN := rfl
@[simp] theorem State.setSeq_now (s : State) (q : Sequencer) : (s.setSeq q).now = s.now := rfl
@[simp] theorem State.setSeq_params (s : State) (q : Sequencer) : (s.setSeq q).params = s.params := rfl
@[simp] theorem State.setSeq_host (s : State) (q : Sequencer) : (s.setSeq q).host = s.host := rfl
@[simp] theorem State.setSeq_agenda (s : State) (q : Sequencer) : (s.setSeq q).agenda = s.agenda := rfl
@[simp] theorem State.setSeq_draws (s : State) (q : Sequencer) : (s.setSeq q).draws = s.draws := rfl

/-! ### setHost -/

@[simp] theorem State.setHost_lines (s : State) (h : HostSide) : (s.setHost h).lines = s.lines := rfl
@[simp] theorem State.setHost_ext (s : State) (h : HostSide) : (s.setHost h).ext = s.ext := rfl
@[simp] theorem State.setHost_result (s : State) (h : HostSide) : (s.setHost h).result = s.result := rfl
@[simp] theorem State.setHost_seq (s : State) (h : HostSide) : (s.setHost h).seq = s.seq := rfl
@[simp] theorem State.setHost_acc (s : State) (h : HostSide) : (s.setHost h).acc = s.acc := rfl
@[simp] theorem State.setHost_edgeEn (s : State) (h : HostSide) : (s.setHost h).edgeEn = s.edgeEn := rfl
@[simp] theorem State.setHost_edgePrev (s : State) (h : HostSide) : (s.setHost h).edgePrev = s.edgePrev := rfl
@[simp] theorem State.setHost_pend (s : State) (h : HostSide) : (s.setHost h).pend = s.pend := rfl
@[simp] theorem State.setHost_fault (s : State) (h : HostSide) : (s.setHost h).fault = s.fault := rfl
@[simp] theorem State.setHost_fcause (s : State) (h : HostSide) : (s.setHost h).fcause = s.fcause := rfl
@[simp] theorem State.setHost_rstN (s : State) (h : HostSide) : (s.setHost h).rstN = s.rstN := rfl
@[simp] theorem State.setHost_now (s : State) (h : HostSide) : (s.setHost h).now = s.now := rfl
@[simp] theorem State.setHost_params (s : State) (h : HostSide) : (s.setHost h).params = s.params := rfl
@[simp] theorem State.setHost_host (s : State) (h : HostSide) : (s.setHost h).host = h := rfl
@[simp] theorem State.setHost_agenda (s : State) (h : HostSide) : (s.setHost h).agenda = s.agenda := rfl
@[simp] theorem State.setHost_draws (s : State) (h : HostSide) : (s.setHost h).draws = s.draws := rfl

/-! ### setProgram -/

@[simp] theorem State.setProgram_lines (s : State) (ops : List HostOp) : (s.setProgram ops).lines = s.lines := rfl
@[simp] theorem State.setProgram_ext (s : State) (ops : List HostOp) : (s.setProgram ops).ext = s.ext := rfl
@[simp] theorem State.setProgram_result (s : State) (ops : List HostOp) : (s.setProgram ops).result = s.result := rfl
@[simp] theorem State.setProgram_seq (s : State) (ops : List HostOp) : (s.setProgram ops).seq = s.seq := rfl
@[simp] theorem State.setProgram_acc (s : State) (ops : List HostOp) : (s.setProgram ops).acc = s.acc := rfl
@[simp] theorem State.setProgram_edgeEn (s : State) (ops : List HostOp) : (s.setProgram ops).edgeEn = s.edgeEn := rfl
@[simp] theorem State.setProgram_edgePrev (s : State) (ops : List HostOp) : (s.setProgram ops).edgePrev = s.edgePrev := rfl
@[simp] theorem State.setProgram_pend (s : State) (ops : List HostOp) : (s.setProgram ops).pend = s.pend := rfl
@[simp] theorem State.setProgram_fault (s : State) (ops : List HostOp) : (s.setProgram ops).fault = s.fault := rfl
@[simp] theorem State.setProgram_fcause (s : State) (ops : List HostOp) : (s.setProgram ops).fcause = s.fcause := rfl
@[simp] theorem State.setProgram_rstN (s : State) (ops : List HostOp) : (s.setProgram ops).rstN = s.rstN := rfl
@[simp] theorem State.setProgram_now (s : State) (ops : List HostOp) : (s.setProgram ops).now = s.now := rfl
@[simp] theorem State.setProgram_params (s : State) (ops : List HostOp) : (s.setProgram ops).params = s.params := rfl
@[simp] theorem State.setProgram_host (s : State) (ops : List HostOp) : (s.setProgram ops).host = { s.host with program := ops } := rfl
@[simp] theorem State.setProgram_agenda (s : State) (ops : List HostOp) : (s.setProgram ops).agenda = s.agenda := rfl
@[simp] theorem State.setProgram_draws (s : State) (ops : List HostOp) : (s.setProgram ops).draws = s.draws := rfl

/-! ### setData -/

@[simp] theorem State.setData_lines (s : State) (w : Word) : (s.setData w).lines = s.lines := rfl
@[simp] theorem State.setData_ext (s : State) (w : Word) : (s.setData w).ext = s.ext := rfl
@[simp] theorem State.setData_result (s : State) (w : Word) : (s.setData w).result = s.result := rfl
@[simp] theorem State.setData_seq (s : State) (w : Word) : (s.setData w).seq = s.seq := rfl
@[simp] theorem State.setData_acc (s : State) (w : Word) : (s.setData w).acc = s.acc := rfl
@[simp] theorem State.setData_edgeEn (s : State) (w : Word) : (s.setData w).edgeEn = s.edgeEn := rfl
@[simp] theorem State.setData_edgePrev (s : State) (w : Word) : (s.setData w).edgePrev = s.edgePrev := rfl
@[simp] theorem State.setData_pend (s : State) (w : Word) : (s.setData w).pend = s.pend := rfl
@[simp] theorem State.setData_fault (s : State) (w : Word) : (s.setData w).fault = s.fault := rfl
@[simp] theorem State.setData_fcause (s : State) (w : Word) : (s.setData w).fcause = s.fcause := rfl
@[simp] theorem State.setData_rstN (s : State) (w : Word) : (s.setData w).rstN = s.rstN := rfl
@[simp] theorem State.setData_now (s : State) (w : Word) : (s.setData w).now = s.now := rfl
@[simp] theorem State.setData_params (s : State) (w : Word) : (s.setData w).params = s.params := rfl
@[simp] theorem State.setData_host (s : State) (w : Word) : (s.setData w).host = { s.host with data := w } := rfl
@[simp] theorem State.setData_agenda (s : State) (w : Word) : (s.setData w).agenda = s.agenda := rfl
@[simp] theorem State.setData_draws (s : State) (w : Word) : (s.setData w).draws = s.draws := rfl

/-! ### raise -/

@[simp] theorem State.raise_lines (s : State) (c : FaultCause) : (s.raise c).lines = s.lines := rfl
@[simp] theorem State.raise_ext (s : State) (c : FaultCause) : (s.raise c).ext = s.ext := rfl
@[simp] theorem State.raise_result (s : State) (c : FaultCause) : (s.raise c).result = s.result := rfl
@[simp] theorem State.raise_seq (s : State) (c : FaultCause) : (s.raise c).seq = s.seq := rfl
@[simp] theorem State.raise_acc (s : State) (c : FaultCause) : (s.raise c).acc = s.acc := rfl
@[simp] theorem State.raise_edgeEn (s : State) (c : FaultCause) : (s.raise c).edgeEn = s.edgeEn := rfl
@[simp] theorem State.raise_edgePrev (s : State) (c : FaultCause) : (s.raise c).edgePrev = s.edgePrev := rfl
@[simp] theorem State.raise_pend (s : State) (c : FaultCause) : (s.raise c).pend = s.pend := rfl
@[simp] theorem State.raise_fault (s : State) (c : FaultCause) : (s.raise c).fault = true := rfl
@[simp] theorem State.raise_fcause (s : State) (c : FaultCause) : (s.raise c).fcause = if s.fault then s.fcause else causeCode c := rfl
@[simp] theorem State.raise_rstN (s : State) (c : FaultCause) : (s.raise c).rstN = s.rstN := rfl
@[simp] theorem State.raise_now (s : State) (c : FaultCause) : (s.raise c).now = s.now := rfl
@[simp] theorem State.raise_params (s : State) (c : FaultCause) : (s.raise c).params = s.params := rfl
@[simp] theorem State.raise_host (s : State) (c : FaultCause) : (s.raise c).host = s.host := rfl
@[simp] theorem State.raise_agenda (s : State) (c : FaultCause) : (s.raise c).agenda = s.agenda := rfl
@[simp] theorem State.raise_draws (s : State) (c : FaultCause) : (s.raise c).draws = s.draws := rfl

/-! ### start -/

@[simp] theorem State.start_lines (s : State) (cmd : Instr) (list : List MicroStep) : (s.start cmd list).lines = s.lines := rfl
@[simp] theorem State.start_ext (s : State) (cmd : Instr) (list : List MicroStep) : (s.start cmd list).ext = s.ext := rfl
@[simp] theorem State.start_result (s : State) (cmd : Instr) (list : List MicroStep) : (s.start cmd list).result = s.result := rfl
@[simp] theorem State.start_seq (s : State) (cmd : Instr) (list : List MicroStep) : (s.start cmd list).seq = { busy := true, cmd := cmd, list := list, k := 0, wait := .none, since := s.seq.since } := rfl
@[simp] theorem State.start_acc (s : State) (cmd : Instr) (list : List MicroStep) : (s.start cmd list).acc = s.acc := rfl
@[simp] theorem State.start_edgeEn (s : State) (cmd : Instr) (list : List MicroStep) : (s.start cmd list).edgeEn = s.edgeEn := rfl
@[simp] theorem State.start_edgePrev (s : State) (cmd : Instr) (list : List MicroStep) : (s.start cmd list).edgePrev = s.edgePrev := rfl
@[simp] theorem State.start_pend (s : State) (cmd : Instr) (list : List MicroStep) : (s.start cmd list).pend = s.pend := rfl
@[simp] theorem State.start_fault (s : State) (cmd : Instr) (list : List MicroStep) : (s.start cmd list).fault = s.fault := rfl
@[simp] theorem State.start_fcause (s : State) (cmd : Instr) (list : List MicroStep) : (s.start cmd list).fcause = s.fcause := rfl
@[simp] theorem State.start_rstN (s : State) (cmd : Instr) (list : List MicroStep) : (s.start cmd list).rstN = s.rstN := rfl
@[simp] theorem State.start_now (s : State) (cmd : Instr) (list : List MicroStep) : (s.start cmd list).now = s.now := rfl
@[simp] theorem State.start_params (s : State) (cmd : Instr) (list : List MicroStep) : (s.start cmd list).params = s.params := rfl
@[simp] theorem State.start_host (s : State) (cmd : Instr) (list : List MicroStep) : (s.start cmd list).host = s.host := rfl
@[simp] theorem State.start_agenda (s : State) (cmd : Instr) (list : List MicroStep) : (s.start cmd list).agenda = s.agenda := rfl
@[simp] theorem State.start_draws (s : State) (cmd : Instr) (list : List MicroStep) : (s.start cmd list).draws = s.draws := rfl

/-! ### blockReset -/

@[simp] theorem State.blockReset_lines (s : State) : (s.blockReset).lines = linesReset := rfl
@[simp] theorem State.blockReset_ext (s : State) : (s.blockReset).ext = s.ext := rfl
@[simp] theorem State.blockReset_result (s : State) : (s.blockReset).result = 0#32 := rfl
@[simp] theorem State.blockReset_seq (s : State) : (s.blockReset).seq = Sequencer.reset := rfl
@[simp] theorem State.blockReset_acc (s : State) : (s.blockReset).acc = 0#8 := rfl
@[simp] theorem State.blockReset_edgeEn (s : State) : (s.blockReset).edgeEn = false := rfl
@[simp] theorem State.blockReset_edgePrev (s : State) : (s.blockReset).edgePrev = false := rfl
@[simp] theorem State.blockReset_pend (s : State) : (s.blockReset).pend = false := rfl
@[simp] theorem State.blockReset_fault (s : State) : (s.blockReset).fault = false := rfl
@[simp] theorem State.blockReset_fcause (s : State) : (s.blockReset).fcause = 0#4 := rfl
@[simp] theorem State.blockReset_rstN (s : State) : (s.blockReset).rstN = s.rstN := rfl
@[simp] theorem State.blockReset_now (s : State) : (s.blockReset).now = s.now := rfl
@[simp] theorem State.blockReset_params (s : State) : (s.blockReset).params = s.params := rfl
@[simp] theorem State.blockReset_host (s : State) : (s.blockReset).host = s.host := rfl
@[simp] theorem State.blockReset_agenda (s : State) : (s.blockReset).agenda = s.agenda := rfl
@[simp] theorem State.blockReset_draws (s : State) : (s.blockReset).draws = s.draws := rfl

/-! ### clockTurn -/

@[simp] theorem State.clockTurn_lines (s : State) (dt : Nat) : (s.clockTurn dt).lines = s.lines := rfl
@[simp] theorem State.clockTurn_ext (s : State) (dt : Nat) : (s.clockTurn dt).ext = s.ext := rfl
@[simp] theorem State.clockTurn_result (s : State) (dt : Nat) : (s.clockTurn dt).result = s.result := rfl
@[simp] theorem State.clockTurn_seq (s : State) (dt : Nat) : (s.clockTurn dt).seq = s.seq := rfl
@[simp] theorem State.clockTurn_acc (s : State) (dt : Nat) : (s.clockTurn dt).acc = s.acc := rfl
@[simp] theorem State.clockTurn_edgeEn (s : State) (dt : Nat) : (s.clockTurn dt).edgeEn = s.edgeEn := rfl
@[simp] theorem State.clockTurn_edgePrev (s : State) (dt : Nat) : (s.clockTurn dt).edgePrev = s.edgePrev := rfl
@[simp] theorem State.clockTurn_pend (s : State) (dt : Nat) : (s.clockTurn dt).pend = s.pend := rfl
@[simp] theorem State.clockTurn_fault (s : State) (dt : Nat) : (s.clockTurn dt).fault = s.fault := rfl
@[simp] theorem State.clockTurn_fcause (s : State) (dt : Nat) : (s.clockTurn dt).fcause = s.fcause := rfl
@[simp] theorem State.clockTurn_rstN (s : State) (dt : Nat) : (s.clockTurn dt).rstN = s.rstN := rfl
@[simp] theorem State.clockTurn_now (s : State) (dt : Nat) : (s.clockTurn dt).now = s.now + dt := rfl
@[simp] theorem State.clockTurn_params (s : State) (dt : Nat) : (s.clockTurn dt).params = s.params := rfl
@[simp] theorem State.clockTurn_host (s : State) (dt : Nat) : (s.clockTurn dt).host = s.host := rfl
@[simp] theorem State.clockTurn_agenda (s : State) (dt : Nat) : (s.clockTurn dt).agenda = s.agenda := rfl
@[simp] theorem State.clockTurn_draws (s : State) (dt : Nat) : (s.clockTurn dt).draws = s.draws := rfl

/-! ### goOnDecoding -/

@[simp] theorem State.goOnDecoding_lines (s : State) (g : DecodeStage) : (s.goOnDecoding g).lines = s.lines := rfl
@[simp] theorem State.goOnDecoding_ext (s : State) (g : DecodeStage) : (s.goOnDecoding g).ext = s.ext := rfl
@[simp] theorem State.goOnDecoding_result (s : State) (g : DecodeStage) : (s.goOnDecoding g).result = s.result := rfl
@[simp] theorem State.goOnDecoding_seq (s : State) (g : DecodeStage) : (s.goOnDecoding g).seq = s.seq := rfl
@[simp] theorem State.goOnDecoding_acc (s : State) (g : DecodeStage) : (s.goOnDecoding g).acc = s.acc := rfl
@[simp] theorem State.goOnDecoding_edgeEn (s : State) (g : DecodeStage) : (s.goOnDecoding g).edgeEn = s.edgeEn := rfl
@[simp] theorem State.goOnDecoding_edgePrev (s : State) (g : DecodeStage) : (s.goOnDecoding g).edgePrev = s.edgePrev := rfl
@[simp] theorem State.goOnDecoding_pend (s : State) (g : DecodeStage) : (s.goOnDecoding g).pend = s.pend := rfl
@[simp] theorem State.goOnDecoding_fault (s : State) (g : DecodeStage) : (s.goOnDecoding g).fault = s.fault := rfl
@[simp] theorem State.goOnDecoding_fcause (s : State) (g : DecodeStage) : (s.goOnDecoding g).fcause = s.fcause := rfl
@[simp] theorem State.goOnDecoding_rstN (s : State) (g : DecodeStage) : (s.goOnDecoding g).rstN = s.rstN := rfl
@[simp] theorem State.goOnDecoding_now (s : State) (g : DecodeStage) : (s.goOnDecoding g).now = s.now := rfl
@[simp] theorem State.goOnDecoding_params (s : State) (g : DecodeStage) : (s.goOnDecoding g).params = s.params := rfl
@[simp] theorem State.goOnDecoding_agenda (s : State) (g : DecodeStage) : (s.goOnDecoding g).agenda = s.agenda := rfl
@[simp] theorem State.goOnDecoding_draws (s : State) (g : DecodeStage) : (s.goOnDecoding g).draws = s.draws := rfl
@[simp] theorem State.goOnDecoding_host (s : State) (g : DecodeStage) :
    (s.goOnDecoding g).host = { s.host with engine := .decoding g, program := .decodeTask :: s.host.program } := rfl

/-! ### dispatchFrame -/

@[simp] theorem State.dispatchFrame_lines (s : State) (v : Byte) : (s.dispatchFrame v).lines = s.lines := rfl
@[simp] theorem State.dispatchFrame_ext (s : State) (v : Byte) : (s.dispatchFrame v).ext = s.ext := rfl
@[simp] theorem State.dispatchFrame_result (s : State) (v : Byte) : (s.dispatchFrame v).result = s.result := rfl
@[simp] theorem State.dispatchFrame_seq (s : State) (v : Byte) : (s.dispatchFrame v).seq = s.seq := rfl
@[simp] theorem State.dispatchFrame_acc (s : State) (v : Byte) : (s.dispatchFrame v).acc = s.acc := rfl
@[simp] theorem State.dispatchFrame_edgeEn (s : State) (v : Byte) : (s.dispatchFrame v).edgeEn = s.edgeEn := rfl
@[simp] theorem State.dispatchFrame_edgePrev (s : State) (v : Byte) : (s.dispatchFrame v).edgePrev = s.edgePrev := rfl
@[simp] theorem State.dispatchFrame_pend (s : State) (v : Byte) : (s.dispatchFrame v).pend = s.pend := rfl
@[simp] theorem State.dispatchFrame_fault (s : State) (v : Byte) : (s.dispatchFrame v).fault = s.fault := rfl
@[simp] theorem State.dispatchFrame_fcause (s : State) (v : Byte) : (s.dispatchFrame v).fcause = s.fcause := rfl
@[simp] theorem State.dispatchFrame_rstN (s : State) (v : Byte) : (s.dispatchFrame v).rstN = s.rstN := rfl
@[simp] theorem State.dispatchFrame_now (s : State) (v : Byte) : (s.dispatchFrame v).now = s.now := rfl
@[simp] theorem State.dispatchFrame_params (s : State) (v : Byte) : (s.dispatchFrame v).params = s.params := rfl
@[simp] theorem State.dispatchFrame_agenda (s : State) (v : Byte) : (s.dispatchFrame v).agenda = s.agenda := rfl
@[simp] theorem State.dispatchFrame_draws (s : State) (v : Byte) : (s.dispatchFrame v).draws = s.draws := rfl
@[simp] theorem State.dispatchFrame_host (s : State) (v : Byte) :
    (s.dispatchFrame v).host = { s.host with sink := s.host.sink ++ consume s.host.consumer v, engine := .idle } := rfl

/-! ### The edge detector -/

@[simp] theorem State.edgeDetect_lines (s : State) : s.edgeDetect.lines = s.lines := by
  unfold State.edgeDetect; split <;> rfl
@[simp] theorem State.edgeDetect_ext (s : State) : s.edgeDetect.ext = s.ext := by
  unfold State.edgeDetect; split <;> rfl
@[simp] theorem State.edgeDetect_result (s : State) : s.edgeDetect.result = s.result := by
  unfold State.edgeDetect; split <;> rfl
@[simp] theorem State.edgeDetect_seq (s : State) : s.edgeDetect.seq = s.seq := by
  unfold State.edgeDetect; split <;> rfl
@[simp] theorem State.edgeDetect_acc (s : State) : s.edgeDetect.acc = s.acc := by
  unfold State.edgeDetect; split <;> rfl
@[simp] theorem State.edgeDetect_edgeEn (s : State) : s.edgeDetect.edgeEn = s.edgeEn := by
  unfold State.edgeDetect; split <;> rfl
@[simp] theorem State.edgeDetect_fault (s : State) : s.edgeDetect.fault = s.fault := by
  unfold State.edgeDetect; split <;> rfl
@[simp] theorem State.edgeDetect_fcause (s : State) : s.edgeDetect.fcause = s.fcause := by
  unfold State.edgeDetect; split <;> rfl
@[simp] theorem State.edgeDetect_rstN (s : State) : s.edgeDetect.rstN = s.rstN := by
  unfold State.edgeDetect; split <;> rfl
@[simp] theorem State.edgeDetect_now (s : State) : s.edgeDetect.now = s.now := by
  unfold State.edgeDetect; split <;> rfl
@[simp] theorem State.edgeDetect_params (s : State) : s.edgeDetect.params = s.params := by
  unfold State.edgeDetect; split <;> rfl
@[simp] theorem State.edgeDetect_host (s : State) : s.edgeDetect.host = s.host := by
  unfold State.edgeDetect; split <;> rfl
@[simp] theorem State.edgeDetect_agenda (s : State) : s.edgeDetect.agenda = s.agenda := by
  unfold State.edgeDetect; split <;> rfl
@[simp] theorem State.edgeDetect_draws (s : State) : s.edgeDetect.draws = s.draws := by
  unfold State.edgeDetect; split <;> rfl
@[simp] theorem State.edgeDetect_pend (s : State) :
    s.edgeDetect.pend = (s.pend || (s.rstN && s.edgeEn && s.edgePrev && !s.pin .irq)) := by
  unfold State.edgeDetect
  cases h : (s.rstN && s.edgeEn) <;> simp
@[simp] theorem State.edgeDetect_edgePrev (s : State) :
    s.edgeDetect.edgePrev = if s.rstN && s.edgeEn then s.pin .irq else s.edgePrev := by
  unfold State.edgeDetect; split <;> rfl

/-! ### Taking a turn from the schedule -/

@[simp] theorem State.popTurn_lines (s : State) : s.popTurn.lines = s.lines := by
  unfold State.popTurn; split <;> rfl
@[simp] theorem State.popTurn_ext (s : State) : s.popTurn.ext = s.ext := by
  unfold State.popTurn; split <;> rfl
@[simp] theorem State.popTurn_result (s : State) : s.popTurn.result = s.result := by
  unfold State.popTurn; split <;> rfl
@[simp] theorem State.popTurn_seq (s : State) : s.popTurn.seq = s.seq := by
  unfold State.popTurn; split <;> rfl
@[simp] theorem State.popTurn_acc (s : State) : s.popTurn.acc = s.acc := by
  unfold State.popTurn; split <;> rfl
@[simp] theorem State.popTurn_edgeEn (s : State) : s.popTurn.edgeEn = s.edgeEn := by
  unfold State.popTurn; split <;> rfl
@[simp] theorem State.popTurn_edgePrev (s : State) : s.popTurn.edgePrev = s.edgePrev := by
  unfold State.popTurn; split <;> rfl
@[simp] theorem State.popTurn_pend (s : State) : s.popTurn.pend = s.pend := by
  unfold State.popTurn; split <;> rfl
@[simp] theorem State.popTurn_fault (s : State) : s.popTurn.fault = s.fault := by
  unfold State.popTurn; split <;> rfl
@[simp] theorem State.popTurn_fcause (s : State) : s.popTurn.fcause = s.fcause := by
  unfold State.popTurn; split <;> rfl
@[simp] theorem State.popTurn_rstN (s : State) : s.popTurn.rstN = s.rstN := by
  unfold State.popTurn; split <;> rfl
@[simp] theorem State.popTurn_now (s : State) : s.popTurn.now = s.now := by
  unfold State.popTurn; split <;> rfl
@[simp] theorem State.popTurn_params (s : State) : s.popTurn.params = s.params := by
  unfold State.popTurn; split <;> rfl
@[simp] theorem State.popTurn_host (s : State) : s.popTurn.host = s.host := by
  unfold State.popTurn; split <;> rfl

/-! ### Taking an operation from the host's program -/

@[simp] theorem State.popHostOp_lines (s : State) : s.popHostOp.lines = s.lines := by
  unfold State.popHostOp; split <;> rfl
@[simp] theorem State.popHostOp_ext (s : State) : s.popHostOp.ext = s.ext := by
  unfold State.popHostOp; split <;> rfl
@[simp] theorem State.popHostOp_result (s : State) : s.popHostOp.result = s.result := by
  unfold State.popHostOp; split <;> rfl
@[simp] theorem State.popHostOp_seq (s : State) : s.popHostOp.seq = s.seq := by
  unfold State.popHostOp; split <;> rfl
@[simp] theorem State.popHostOp_acc (s : State) : s.popHostOp.acc = s.acc := by
  unfold State.popHostOp; split <;> rfl
@[simp] theorem State.popHostOp_edgeEn (s : State) : s.popHostOp.edgeEn = s.edgeEn := by
  unfold State.popHostOp; split <;> rfl
@[simp] theorem State.popHostOp_edgePrev (s : State) : s.popHostOp.edgePrev = s.edgePrev := by
  unfold State.popHostOp; split <;> rfl
@[simp] theorem State.popHostOp_pend (s : State) : s.popHostOp.pend = s.pend := by
  unfold State.popHostOp; split <;> rfl
@[simp] theorem State.popHostOp_fault (s : State) : s.popHostOp.fault = s.fault := by
  unfold State.popHostOp; split <;> rfl
@[simp] theorem State.popHostOp_fcause (s : State) : s.popHostOp.fcause = s.fcause := by
  unfold State.popHostOp; split <;> rfl
@[simp] theorem State.popHostOp_rstN (s : State) : s.popHostOp.rstN = s.rstN := by
  unfold State.popHostOp; split <;> rfl
@[simp] theorem State.popHostOp_now (s : State) : s.popHostOp.now = s.now := by
  unfold State.popHostOp; split <;> rfl
@[simp] theorem State.popHostOp_params (s : State) : s.popHostOp.params = s.params := by
  unfold State.popHostOp; split <;> rfl
@[simp] theorem State.popHostOp_agenda (s : State) : s.popHostOp.agenda = s.agenda := by
  unfold State.popHostOp; split <;> rfl
@[simp] theorem State.popHostOp_pin (s : State) (l : Line) : s.popHostOp.pin l = s.pin l := by
  simp [State.pin, State.line]

/-! ### Views -/

@[simp] theorem State.popTurn_pin (s : State) (l : Line) : s.popTurn.pin l = s.pin l := by
  simp [State.pin, State.line]
@[simp] theorem State.edgeDetect_pin (s : State) (l : Line) : s.edgeDetect.pin l = s.pin l := by
  simp [State.pin, State.line]
@[simp] theorem State.raise_pin (s : State) (c : FaultCause) (l : Line) : (s.raise c).pin l = s.pin l := rfl
@[simp] theorem State.setSeq_pin (s : State) (q : Sequencer) (l : Line) : (s.setSeq q).pin l = s.pin l := rfl
@[simp] theorem State.setHost_pin (s : State) (h : HostSide) (l : Line) : (s.setHost h).pin l = s.pin l := rfl
@[simp] theorem State.setResult_pin (s : State) (w : Word) (l : Line) : (s.setResult w).pin l = s.pin l := rfl
@[simp] theorem State.setPend_pin (s : State) (v : Bool) (l : Line) : (s.setPend v).pin l = s.pin l := rfl
@[simp] theorem State.setEdge_pin (s : State) (en : Bool) (p : Level) (l : Line) : (s.setEdge en p).pin l = s.pin l := rfl
@[simp] theorem State.setAcc_pin (s : State) (b : Byte) (l : Line) : (s.setAcc b).pin l = s.pin l := rfl
@[simp] theorem State.clockTurn_pin (s : State) (dt : Nat) (l : Line) : (s.clockTurn dt).pin l = s.pin l := rfl
@[simp] theorem State.start_pin (s : State) (c : Instr) (ms : List MicroStep) (l : Line) :
    (s.start c ms).pin l = s.pin l := rfl

end Sys2Proof.Machine
end

