-- ==== Sys2Proof/Laws/Ops.lean ====
section
/-! SUPPORT. What each shared operation can do, once: reading and writing a line, issuing a command, the turns of
HOST and SEQ, and a step. -/

namespace Sys2Proof

@[simp] theorem PerLine.get_put_self {α : Type} (x : PerLine α) (l : Line) (v : α) : (x.put l v).get l = v := by
  cases l <;> rfl

theorem PerLine.get_put_ne {α : Type} (x : PerLine α) {l m : Line} (v : α) (h : m ≠ l) :
    (x.put l v).get m = x.get m := by
  cases l <;> cases m <;> first | rfl | exact absurd rfl h

@[simp] theorem PerLine.put_get_self {α : Type} (x : PerLine α) (l : Line) : x.put l (x.get l) = x := by
  cases l <;> rfl

@[simp] theorem PerLine.put_put_self {α : Type} (x : PerLine α) (l : Line) (v w : α) :
    (x.put l v).put l w = x.put l w := by
  cases l <;> rfl

@[simp] theorem lineOfIndex_index (l : Line) : lineOfIndex l.index = l := by
  cases l <;> rfl

end Sys2Proof

namespace Sys2Proof.Machine

/-! ### Issue -/

theorem issue_busy {pre : Bool} {f : State → State} {s : State} (h : s.seq.busy = true) :
    issue pre f s = .next (s.raise .busy) := by
  simp [issue, h]

theorem issue_accept {f : State → State} {s : State} (h : s.seq.busy = false) :
    issue true f s = .next (f s) := by
  simp [issue, h]

theorem issue_direction {f : State → State} {s : State} (h : s.seq.busy = false) :
    issue false f s = .next (s.raise .direction) := by
  simp [issue, h]

/-- Whatever is issued, the outcome is a next state: a fault BUSY or DIRECTION, or the command's acceptance. -/
theorem issue_cases {pre : Bool} {f : State → State} {s t : State} (h : issue pre f s = .next t) :
    (s.seq.busy = true ∧ t = s.raise .busy) ∨
    (s.seq.busy = false ∧ pre = false ∧ t = s.raise .direction) ∨
    (s.seq.busy = false ∧ pre = true ∧ t = f s) := by
  unfold issue at h
  split at h
  · exact .inl ⟨‹_›, by cases h; rfl⟩
  · rename_i hb
    split at h
    · exact .inr (.inr ⟨by simpa using hb, ‹_›, by cases h; rfl⟩)
    · exact .inr (.inl ⟨by simpa using hb, by simpa using ‹¬ pre = true›, by cases h; rfl⟩)

/-- The direction precondition of a command (file 40 R112). -/
def directionOk (i : Instr) (s : State) : Bool :=
  match i with
  | .set l _ => s.isOut l
  | .read l => s.isIn l
  | .resetPulse => s.isOut .rst
  | _ => true

/-- What accepting a command does to the state. -/
def acceptance (i : Instr) (s : State) : State :=
  match i with
  | .nop => s
  | .cfgOut l v => s.start (.cfgOut l v) [settled (.cfgOut l v)]
  | .cfgIn l => s.start (.cfgIn l) [settled (.cfgIn l)]
  | .set l v => s.start (.set l v) [settled (.drive l v)]
  | .read l => s.setResult (levelWord (s.pin l))
  | .latch l v => if s.isOut l then s.start (.latch l v) [settled (.drive l v)] else s.setLatch l v
  | .pullFrame => (s.setAcc 0#8).start .pullFrame pullList
  | .resetPulse => s.start .resetPulse resetPulseList
  | .take => s.setPend false
  | .edgeEn v => s.setEdge v (if v then s.pin .irq else s.edgePrev)

/-- Every command is issued in the one way, with its own precondition and acceptance. -/
theorem exec_eq_issue (i : Instr) (s : State) : exec i s = issue (directionOk i s) (acceptance i) s := by
  cases i <;> rfl

theorem exec_busy (i : Instr) {s : State} (h : s.seq.busy = true) : exec i s = .next (s.raise .busy) := by
  rw [exec_eq_issue, issue_busy h]

theorem exec_direction {i : Instr} {s : State} (h : s.seq.busy = false) (hd : directionOk i s = false) :
    exec i s = .next (s.raise .direction) := by
  rw [exec_eq_issue, hd, issue_direction h]

theorem exec_accept {i : Instr} {s : State} (h : s.seq.busy = false) (hd : directionOk i s = true) :
    exec i s = .next (acceptance i s) := by
  rw [exec_eq_issue, hd, issue_accept h]

/-- Every command answers a next state. -/
theorem exec_next (i : Instr) (s : State) : ∃ t, exec i s = .next t := by
  rw [exec_eq_issue]; unfold issue
  split
  · exact ⟨_, rfl⟩
  · split <;> exact ⟨_, rfl⟩

theorem exec_cases {i : Instr} {s t : State} (h : exec i s = .next t) :
    (s.seq.busy = true ∧ t = s.raise .busy) ∨
    (s.seq.busy = false ∧ directionOk i s = false ∧ t = s.raise .direction) ∨
    (s.seq.busy = false ∧ directionOk i s = true ∧ t = acceptance i s) :=
  issue_cases (exec_eq_issue i s ▸ h)

theorem onNext_next {f : State → State} {o : Outcome} {t : State} :
    onNext f o = .next t ↔ ∃ u, o = .next u ∧ t = f u := by
  cases o <;> simp [onNext, eq_comm]

/-- No command sees or touches the host. -/
theorem exec_setHost (i : Instr) (s : State) (h : HostSide) :
    exec i (s.setHost h) = onNext (fun t => t.setHost h) (exec i s) := by
  rw [exec_eq_issue, exec_eq_issue]
  have hd : directionOk i (s.setHost h) = directionOk i s := by cases i <;> rfl
  have ha : acceptance i (s.setHost h) = (acceptance i s).setHost h := by
    cases i <;> try rfl
    simp only [acceptance]
    have : ∀ l, (s.setHost h).isOut l = s.isOut l := fun _ => rfl
    rw [this]; split <;> rfl
  rw [hd]
  cases hb : s.seq.busy
  · cases hp : directionOk i s
    · rw [issue_direction (by simpa using hb), issue_direction hb]; rfl
    · rw [issue_accept (by simpa using hb), issue_accept hb, ha]; rfl
  · rw [issue_busy (by simpa using hb), issue_busy hb]; rfl

/-- What one access can do: hand the host a value, record a fault, or issue the command whose word it writes to CMD. -/
theorem access_cases {x : Access} {s t : State} (h : access x s = .next t) :
    (∃ w, t = s.setData w) ∨
    (s.rstN = true ∧ ∃ c w, t = (s.raise c).setData w) ∨
    (s.rstN = true ∧ ∃ w i, x = .write s.params.base 4 w ∧ decode w = .ok i ∧ exec i s = .next t) := by
  cases x with
  | read a n =>
    simp only [access, memRead] at h
    split at h
    · split at h
      · split at h <;> cases h
        · exact .inl ⟨_, rfl⟩
        · exact .inr (.inl ⟨‹_›, .bus, _, rfl⟩)
      · cases h; exact .inl ⟨_, rfl⟩
    · cases h
  | write a n w =>
    simp only [access, memWrite] at h
    split at h
    · split at h
      · split at h
        · rename_i hr hb
          simp only [admitted, Bool.and_eq_true, beq_iff_eq] at hb
          obtain ⟨⟨rfl, _⟩, rfl⟩ := hb
          unfold issueWord at h
          split at h
          · exact .inr (.inr ⟨hr, w, _, rfl, ‹_›, h⟩)
          · cases h; exact .inr (.inl ⟨hr, _, s.host.data, rfl⟩)
        · cases h; exact .inr (.inl ⟨‹_›, .bus, s.host.data, rfl⟩)
      · cases h; exact .inl ⟨s.host.data, rfl⟩
    · cases h

@[simp] theorem accessIfAny_some (x : Access) (s : State) : accessIfAny (some x) s = access x s := rfl

@[simp] theorem accessIfAny_none (s : State) : accessIfAny none s = .next s := rfl

/-- Bit 0 of STATUS is BUSY (file 10 R34), which is what `wait_idle` polls. -/
theorem statusWord_busy (s : State) : s.statusWord.getLsbD 0 = s.seq.busy := by
  simp only [State.statusWord, BitVec.zeroExtend, BitVec.getLsbD_setWidth, BitVec.getLsbD_append]
  simp

/-- A read of STATUS, busy or not, in reset or not. -/
theorem access_statusRead (s : State) :
    access (statusRead s.params) s = .next (s.setData (if s.rstN then s.statusWord else 0#32)) := by
  cases h : s.rstN <;> simp [access, memRead, statusRead, inWindow, admitted, State.regWord, h]

/-- A read of RESULT, in reset or not. -/
theorem access_resultRead (s : State) :
    access (resultRead s.params) s = .next (s.setData (if s.rstN then s.result else 0#32)) := by
  cases h : s.rstN <;> simp [access, memRead, resultRead, inWindow, admitted, State.regWord, h]

/-- A write of a word to CMD: ignored in reset, else the word is issued. -/
theorem access_write_cmd (s : State) (w : Word) :
    access (.write s.params.base 4 w) s = if s.rstN then issueWord w s else .next s := by
  simp [access, memWrite, inWindow, admitted]

/-- No command sees the host's state, so none changes it. -/
theorem exec_host {i : Instr} {s t : State} (h : exec i s = .next t) : t.host = s.host := by
  rcases exec_cases h with ⟨_, rfl⟩ | ⟨_, _, rfl⟩ | ⟨_, _, rfl⟩
  · rfl
  · rfl
  · cases i <;> try rfl
    simp only [acceptance]; split <;> rfl

/-- An access changes what the host last read, and nothing else of the host. -/
theorem access_host {x : Access} {s t : State} (h : access x s = .next t) :
    t.host = { s.host with data := t.host.data } := by
  rcases access_cases h with ⟨w, rfl⟩ | ⟨_, c, w, rfl⟩ | ⟨_, w, i, _, _, he⟩
  · rfl
  · rfl
  · rw [exec_host he]

/-- The host's software touches the host alone. -/
theorem afterOp_eq (op : HostOp) (s : State) : ∃ h, s.afterOp op = s.setHost h := by
  cases op with
  | access x => exact ⟨s.host, rfl⟩
  | waitIdle =>
    simp only [State.afterOp, State.afterStatusRead]
    split
    · exact ⟨_, rfl⟩
    · exact ⟨s.host, rfl⟩
  | decodeTask =>
    simp only [State.afterOp, State.afterDecodeStep]
    split <;> exact ⟨_, rfl⟩

/-- What a turn of HOST can do to the block: nothing, record a fault, or issue the command that the word it writes to
CMD decodes to. `u` is the state with the host's own fields and the draw counter moved on. -/
theorem hostTurn_cases {s t : State} (h : hostTurn s = .next t) :
    ∃ hs d, let u : State := { s with host := hs, draws := d }
      t = u ∨
      (s.rstN = true ∧ ∃ c, t = u.raise c) ∨
      (s.rstN = true ∧ ∃ w i, s.nextAccess = some (.write s.params.base 4 w) ∧ decode w = .ok i ∧
        exec i u = .next t) := by
  obtain ⟨p, hp, ha⟩ : ∃ p, s.popHostOp = p ∧ ∃ hs d, p = { s with host := hs, draws := d } ∧ hs.engine = s.host.engine := by
    refine ⟨_, rfl, ?_⟩
    unfold State.popHostOp
    split
    · exact ⟨_, s.draws, rfl, rfl⟩
    · exact ⟨s.host, _, rfl, rfl⟩
  obtain ⟨hs, d, rfl, he⟩ := ha
  unfold hostTurn hostOp at h
  rw [hp, onNext_next] at h
  obtain ⟨u, hu, rfl⟩ := h
  obtain ⟨k, hk⟩ := afterOp_eq s.nextHostOp u
  rw [hk]
  have hx : State.opAccess { s with host := hs, draws := d } s.nextHostOp = s.nextAccess := by
    unfold State.nextAccess State.opAccess
    simp only [he]
  rw [hx] at hu
  refine ⟨k, d, ?_⟩
  cases hn : s.nextAccess with
  | none => rw [hn] at hu; cases hu; exact .inl rfl
  | some x =>
    rw [hn] at hu
    rcases access_cases hu with ⟨w, rfl⟩ | ⟨hr, c, w, rfl⟩ | ⟨hr, w, i, rfl, hd, hi⟩
    · exact .inl rfl
    · exact .inr (.inl ⟨hr, c, rfl⟩)
    · refine .inr (.inr ⟨hr, w, i, rfl, hd, ?_⟩)
      have := exec_setHost i { s with host := hs, draws := d } k
      rw [hi] at this
      exact this

/-- The interrupt entry touches the host alone. -/
theorem irqEntry_eq (s : State) : ∃ h, s.irqEntry = { s with host := h } := by
  unfold State.irqEntry
  split
  · exact ⟨_, rfl⟩
  · exact ⟨s.host, rfl⟩

/-- The end of a wait touches SEQ's wait alone, and only where the wait's lower bound has passed. -/
theorem endWait_cases (s : State) :
    s.endWait = s ∨
    (s.rstN = true ∧ s.seq.busy = true ∧ s.seq.wait ≠ .none ∧ s.waitOver = true ∧
      s.endWait = s.setSeq { s.seq with wait := .none }) := by
  unfold State.endWait
  split
  · rename_i h
    simp only [Bool.and_eq_true, bne_iff_ne, ne_eq] at h
    exact .inr ⟨h.1.1.1, h.1.1.2, h.1.2, h.2, rfl⟩
  · exact .inl rfl

/-- A turn of SEQ does nothing, or performs the micro-step `seq.k`, or finishes after the last. -/
theorem seqTurn_cases (s : State) :
    s.seqTurn = s ∨
    (s.seqReady = true ∧ ∃ m, s.seq.list[s.seq.k]? = some m ∧ s.seqTurn = s.actionStep m) ∨
    (s.seqReady = true ∧ s.seq.k = s.seq.list.length ∧ s.seqTurn = s.finishStep) := by
  unfold State.seqTurn
  split
  · rename_i h
    split
    · exact .inr (.inl ⟨h, _, ‹_›, rfl⟩)
    · split
      · rename_i hk
        exact .inr (.inr ⟨h, by simpa using hk, rfl⟩)
      · exact .inl rfl
  · exact .inl rfl

theorem seqReady_iff {s : State} :
    s.seqReady = true ↔ s.rstN = true ∧ s.seq.busy = true ∧ s.seq.wait = .none := by
  simp [State.seqReady, and_assoc]

/-- What an action does to the lines, in the terms claims use. -/
theorem perform_lines (s : State) (a : Action) : (s.perform a).lines = lineEffect s.lines a := by
  cases a <;> rfl

/-- An action changes the lines and ACC alone. -/
theorem perform_eq (s : State) (a : Action) :
    s.perform a = { s with lines := lineEffect s.lines a, acc := (s.perform a).acc } := by
  cases a <;> rfl

/-! ### A step -/

/-- A step answers a next state exactly when the pins are well formed and the turn answers one; the edge detector
comes last. -/
theorem step_next_iff {s t : State} :
    step s = .next t ↔
      s.params.wf = true ∧ ∃ u, performTurn s.nextTurn s.popTurn = .next u ∧ t = u.edgeDetect := by
  unfold step runTurn
  split
  · rename_i hw
    cases hp : performTurn s.nextTurn s.popTurn <;> simp [endOfStep, onNext, hw, eq_comm]
  · rename_i hw
    simp [hw]

theorem runSteps_succ (n : Nat) {s t : State} (h : step s = .next t) : runSteps (n + 1) s = runSteps n t := by
  simp [runSteps, h]

theorem visited_succ (n : Nat) {s t : State} (h : step s = .next t) : visited (n + 1) s = s :: visited n t := by
  simp [visited, h]

/-- A run of one more step takes that step first. -/
theorem runSteps_next {n : Nat} {s t : State} (h : runSteps (n + 1) s = .next t) :
    ∃ u, step s = .next u ∧ runSteps n u = .next t := by
  unfold runSteps at h
  split at h
  · exact ⟨_, ‹_›, h⟩
  · rename_i o ho
    exact absurd h (ho t)

theorem coreRun_next (M : Host.Core) (n : Nat) {s t : M.State} (h : M.step s = .next t) :
    M.run (n + 1) s = M.run n t := by
  simp [Host.Core.run, h]

theorem coreRun_fault (M : Host.Core) (n : Nat) {s : M.State} {r : M.Fault} (h : M.step s = .fault r) :
    M.run (n + 1) s = .fault r := by
  simp [Host.Core.run, h]

theorem coreRun_refused (M : Host.Core) (n : Nat) {s : M.State} {r : M.Refusal} (h : M.step s = .refused r) :
    M.run (n + 1) s = .refused r := by
  simp [Host.Core.run, h]

/-- Runs of this package are those of the host's interface. -/
theorem runSteps_eq_core_run (n : Nat) (s : State) : runSteps n s = Host.Core.run Sys2Proof.core n s := by
  induction n generalizing s with
  | zero => rfl
  | succ n ih =>
    cases h : step s with
    | next t => rw [runSteps_succ n h, ih t]; exact (coreRun_next Sys2Proof.core n h).symm
    | fault r =>
      have : runSteps (n + 1) s = .fault r := by simp [runSteps, h]
      rw [this]; exact (coreRun_fault Sys2Proof.core n h).symm
    | refused r =>
      have : runSteps (n + 1) s = .refused r := by simp [runSteps, h]
      rw [this]; exact (coreRun_refused Sys2Proof.core n h).symm

end Sys2Proof.Machine
end

