-- ==== Sys2Proof/Laws/PerInstr.lean ====
section
/-! SUPPORT. The family OpcodeRow, one lemma per command: the command's word lies in its own row of the opcode map (file
30 R82), and its reserved bits are 0 (R84). -/

namespace Sys2Proof.Laws

/-- The word of the command matches its row, `(w & mask) = match`, and has no reserved bit set. -/
def OpcodeRow.Statement (i : Instr) : Prop :=
  encode i &&& rowMask i = rowMatch i ∧ reservedZero (encode i) = true

theorem OpcodeRow.nop : OpcodeRow.Statement .nop := by
  unfold OpcodeRow.Statement; decide

theorem OpcodeRow.cfgOut (ln : Line) (lv : Level) : OpcodeRow.Statement (.cfgOut ln lv) := by
  unfold OpcodeRow.Statement; cases ln <;> cases lv <;> decide

theorem OpcodeRow.cfgIn (ln : Line) : OpcodeRow.Statement (.cfgIn ln) := by
  unfold OpcodeRow.Statement; cases ln <;> decide

theorem OpcodeRow.set (ln : Line) (lv : Level) : OpcodeRow.Statement (.set ln lv) := by
  unfold OpcodeRow.Statement; cases ln <;> cases lv <;> decide

theorem OpcodeRow.read (ln : Line) : OpcodeRow.Statement (.read ln) := by
  unfold OpcodeRow.Statement; cases ln <;> decide

theorem OpcodeRow.latch (ln : Line) (lv : Level) : OpcodeRow.Statement (.latch ln lv) := by
  unfold OpcodeRow.Statement; cases ln <;> cases lv <;> decide

theorem OpcodeRow.pullFrame : OpcodeRow.Statement .pullFrame := by
  unfold OpcodeRow.Statement; decide

theorem OpcodeRow.resetPulse : OpcodeRow.Statement .resetPulse := by
  unfold OpcodeRow.Statement; decide

theorem OpcodeRow.take : OpcodeRow.Statement .take := by
  unfold OpcodeRow.Statement; decide

theorem OpcodeRow.edgeEn (lv : Level) : OpcodeRow.Statement (.edgeEn lv) := by
  unfold OpcodeRow.Statement; cases lv <;> decide

end Sys2Proof.Laws
end

