-- ==== Sys2Proof/Laws/Step.lean ====
section
/-! SUPPORT. What one step can do, once: the inversion every whole-machine statement is derived from. -/

namespace Sys2Proof.Machine

/-- `v` is `s` with the host's state and the schedule moved on: the block, its environment and its parameters are those
of `s`. -/
def SameBlock (s v : State) : Prop :=
  ∃ hs d ag, v = { s with host := hs, draws := d, agenda := ag }

theorem sameBlock_popTurn (s : State) : SameBlock s s.popTurn := by
  unfold State.popTurn
  split
  · exact ⟨s.host, s.draws, _, rfl⟩
  · exact ⟨s.host, _, s.agenda, rfl⟩

/-- What a turn makes of the block's state `v`, the result before the edge detector being `u`; `n` is the turn. -/
inductive TurnEffect (s v : State) : Turn → State → Prop
  /-- The block is as it was: a read, an ignored write, a turn of the host's own, or a turn with nothing enabled. -/
  | idle {n : Turn} (h : n = .host ∨ n = .irqEntry ∨ n = .seq ∨ n = .waitEnd) : TurnEffect s v n v
  /-- HOST's access records a fault. -/
  | fault (c : FaultCause) (hr : s.rstN = true) : TurnEffect s v .host (v.raise c)
  /-- HOST's write to CMD is a command that is accepted. -/
  | accept (w : Word) (i : Instr) (hr : s.rstN = true) (hw : s.hostWrites w) (hd : decode w = .ok i)
      (hb : v.seq.busy = false) (hp : directionOk i v = true) : TurnEffect s v .host (acceptance i v)
  /-- SEQ performs a micro-step. -/
  | action (m : MicroStep) (hr : v.seqReady = true) (hm : v.seq.list[v.seq.k]? = some m) :
      TurnEffect s v .seq (v.actionStep m)
  /-- SEQ finishes the command. -/
  | finish (hr : v.seqReady = true) (hk : v.seq.k = v.seq.list.length) : TurnEffect s v .seq v.finishStep
  /-- A wait ends. -/
  | waitOver (hr : s.rstN = true) (hb : v.seq.busy = true) (hw : v.seq.wait ≠ .none) (ho : v.waitOver = true) :
      TurnEffect s v .waitEnd (v.setSeq { v.seq with wait := .none })
  /-- Time passes. -/
  | clock (dt : Nat) : TurnEffect s v (.clock dt) (v.clockTurn dt)
  /-- ENV changes a level. -/
  | env (l : Line) (b : Level) : TurnEffect s v (.env l b) (v.setExt l b)
  /-- `rst_n` takes a level. -/
  | rst (b : Level) : TurnEffect s v (.rstN b) (v.rstTurn b)

/-- Whatever the step, it is one of these effects on the block, and then the edge detector. -/
theorem step_cases {s t : State} (h : step s = .next t) :
    s.params.wf = true ∧ ∃ v u, SameBlock s v ∧ TurnEffect s v s.nextTurn u ∧ t = u.edgeDetect := by
  obtain ⟨hw, u, hu, rfl⟩ := step_next_iff.1 h
  refine ⟨hw, ?_⟩
  obtain ⟨h0, d0, a0, hp⟩ := sameBlock_popTurn s
  cases hn : s.nextTurn <;> rw [hn] at hu <;> simp only [performTurn] at hu
  · obtain ⟨hs, d, h | ⟨hr, c, h⟩ | ⟨hr, w, i, hop, hd, h⟩⟩ := hostTurn_cases hu
    all_goals have sm : SameBlock s { s.popTurn with host := hs, draws := d } := ⟨hs, d, a0, by rw [hp]⟩
    · exact ⟨_, u, sm, h ▸ .idle (.inl rfl), rfl⟩
    · exact ⟨_, u, sm, h ▸ .fault c (by simpa using hr), rfl⟩
    · rcases exec_cases h with ⟨_, h⟩ | ⟨_, _, h⟩ | ⟨hb, hx, h⟩
      · exact ⟨_, u, sm, h ▸ .fault _ (by simpa using hr), rfl⟩
      · exact ⟨_, u, sm, h ▸ .fault _ (by simpa using hr), rfl⟩
      · exact ⟨_, u, sm, h ▸ .accept w i (by simpa using hr) ⟨hn, by simpa using hop⟩ hd hb hx, rfl⟩
  · cases hu
    obtain ⟨hs, he⟩ := irqEntry_eq s.popTurn
    exact ⟨_, _, ⟨hs, d0, a0, by rw [he, hp]⟩, .idle (.inr (.inl rfl)), rfl⟩
  · cases hu
    obtain h | ⟨hr, m, hm, h⟩ | ⟨hr, hk, h⟩ := seqTurn_cases s.popTurn <;>
      refine ⟨s.popTurn, _, sameBlock_popTurn s, ?_, rfl⟩ <;> rw [h]
    · exact .idle (.inr (.inr (.inl rfl)))
    · exact .action m hr hm
    · exact .finish hr hk
  · cases hu
    obtain h | ⟨hr, h1, h2, h3, h⟩ := endWait_cases s.popTurn <;>
      refine ⟨s.popTurn, _, sameBlock_popTurn s, ?_, rfl⟩ <;> rw [h]
    · exact .idle (.inr (.inr (.inr rfl)))
    · exact .waitOver (by simpa using hr) h1 h2 h3
  · cases hu; exact ⟨s.popTurn, _, sameBlock_popTurn s, .clock _, rfl⟩
  · cases hu; exact ⟨s.popTurn, _, sameBlock_popTurn s, .env _ _, rfl⟩
  · cases hu; exact ⟨s.popTurn, _, sameBlock_popTurn s, .rst _, rfl⟩

end Sys2Proof.Machine
end

