-- ==== Sys2Proof/Tests/Slice0.lean ====
section
/-! SUPPORT. Small tests, expected results from spec/ (the vectors V and rules named in each comment), and for every
obligation with hypotheses a witness: a state and operands that meet them together. -/

namespace Sys2Proof.Tests

open Sys2Proof Sys2Proof.Machine

/-! ### Well-formedness: each check refuses an ill-formed term (R10, R180, R234) -/

def pins (d c i r : Nat) : Params := { pin := ⟨d, c, i, r⟩, base := 0x1000, tSettle := 0, tRst := 0 }

theorem test_pins_accepted : (pins 5 6 7 8).wf = true := by decide
theorem test_pins_zero_refused :
    (pins 0 6 7 8).wf = false ∧ (pins 5 0 7 8).wf = false ∧ (pins 5 6 0 8).wf = false ∧ (pins 5 6 7 0).wf = false := by
  decide
theorem test_pins_repeated_refused :
    (pins 5 5 7 8).wf = false ∧ (pins 5 6 5 8).wf = false ∧ (pins 5 6 7 5).wf = false ∧
    (pins 5 6 6 8).wf = false ∧ (pins 5 6 7 6).wf = false ∧ (pins 5 6 7 7).wf = false := by decide

/-- The consumer's parameters of file 95 section 2.8: K00 .. K11 are 10, 11, 12, 20, 21, and KEY_UNKNOWN is 0. -/
def keys : ConsumerParams :=
  { rows := 2, cols := 3, keymap := [10, -1, 11, -1, 12, -1, 20, -1, 21, -1, 0, -1], keyUnknown := 0 }

theorem test_consumer_accepted : keys.wf = true := by decide
theorem test_consumer_refused :
    ({ keys with rows := 0 }).wf = false ∧ ({ keys with cols := 0 }).wf = false ∧
    ({ keys with keymap := [] }).wf = false ∧ ({ keys with keymap := keys.keymap.take 11 }).wf = false := by decide

/-! ### Decode (V1) and encode -/

theorem test_decode_valid_words :
    decode 0x00000000#32 = .ok .nop ∧ decode 0x00001301#32 = .ok (.cfgOut .rst true) ∧
    decode 0x00002200#32 = .ok (.cfgIn .irq) ∧ decode 0x00003100#32 = .ok (.set .clk false) ∧
    decode 0x00004300#32 = .ok (.read .rst) ∧ decode 0x00005201#32 = .ok (.latch .irq true) ∧
    decode 0x00006000#32 = .ok .pullFrame ∧ decode 0x00007300#32 = .ok .resetPulse ∧
    decode 0x00008000#32 = .ok .take ∧ decode 0x00009001#32 = .ok (.edgeEn true) := by decide
theorem test_decode_fixed_fields :
    [0x00000001#32, 0x00000100#32, 0x00002201#32, 0x00004001#32, 0x00006100#32, 0x00006001#32, 0x00007000#32,
      0x00007301#32, 0x00008100#32, 0x00009100#32].map decode = List.replicate 10 (.error .fixedField) := by decide
theorem test_decode_reserved :
    [0x00011000#32, 0x80001000#32, 0x00001400#32, 0x00001002#32, 0x00001080#32, 0x00003002#32].map decode =
      List.replicate 6 (.error .reservedBits) ∧
    decode 0x0000A000#32 = .error .reservedOpcode ∧ decode 0x0000F000#32 = .error .reservedOpcode := by decide
theorem test_encode_words :
    encode (.latch .clk true) = 0x00005101#32 ∧ encode (.edgeEn false) = 0x00009000#32 ∧
    encode .resetPulse = 0x00007300#32 := by decide
theorem test_decodeTableWord : decodeTableWord 32 0x3001 = some (.set .data true) ∧ decodeTableWord 32 0x7000 = none := by
  decide
theorem test_assemble :
    assemble ["cfg_out", "rst", "1"] = some (.cfgOut .rst true) ∧ assemble ["read", "2"] = some (.read .irq) ∧
    assemble ["set", "clk", "2"] = none := by decide

/-! ### States -/

/-- Right after a block reset, with `ext[IRQ] = 1`, `ext[DATA] = 1`, no least wait, and the consumer of file 95. -/
def quiet : State :=
  { State.resetOf (pins 5 6 7 8) with
    ext := ⟨true, false, true, false⟩
    host := { program := [], data := 0#32, engine := .idle, sink := [], consumer := keys } }

/-- `quiet` with CLK and RST OUT at 1 and IRQ OUT at 1. -/
def driven : State :=
  { quiet with lines := ⟨⟨.inp, false⟩, ⟨.out, true⟩, ⟨.out, true⟩, ⟨.out, true⟩⟩ }

/-- `quiet` with CFG_OUT CLK, 1 just accepted, and SEQ's turns to come. -/
def starting : State :=
  { quiet with
    seq := { quiet.seq with busy := true, cmd := .cfgOut .clk true, list := [⟨.cfgOut .clk true, .settle⟩] }
    agenda := [.seq, .waitEnd, .seq] }

/-- `quiet` with a decode in progress at a stage. -/
def decodingAt (g : DecodeStage) : State :=
  { quiet with host := { quiet.host with engine := .decoding g, program := [.decodeTask] } }

/-- The state a turn, or a command, makes. -/
def got (s : State) (o : Outcome) : State :=
  match o with
  | .next t => t
  | _ => s
def issued (i : Instr) (s : State) : State := got s (exec i s)
def turned (t : Turn) (s : State) : State := got s (step { s with agenda := [t] })
def after (n : Nat) (s : State) : State := got s (runSteps n s)
/-- `s` whose HOST is about to write the word to CMD. -/
def writing (w : Word) (s : State) : State := s.placeWrite w

def isNext (o : Outcome) : Bool :=
  match o with
  | .next _ => true
  | _ => false

theorem step_got {s : State} (h : isNext (step s) = true) : step s = .next (got s (step s)) := by
  cases hs : step s <;> simp_all [isNext, got]

def acceptedB (i : Instr) (s : State) : Bool := !s.seq.busy && isNext (exec i s) && (issued i s).seq.busy

theorem accepted_of {i : Instr} {s : State} (h : acceptedB i s = true) : Accepted i s (issued i s) := by
  simp only [acceptedB, Bool.and_eq_true, Bool.not_eq_true'] at h
  refine ⟨h.1.1, ?_, h.2⟩
  have := h.1.2
  unfold issued got
  cases he : exec i s <;> simp_all [isNext]

def withinB (n : Nat) (s : State) : Bool :=
  isNext (runSteps n s) && (visited n s).all (fun u => u.seq.busy && u.rstN) && (after n s).rstN

theorem within_of {n : Nat} {s : State} (h : withinB n s = true) : WithinCommand n s (after n s) := by
  simp only [withinB, Bool.and_eq_true, List.all_eq_true] at h
  refine ⟨?_, fun u hu => h.1.2 u hu, h.2⟩
  have := h.1.1
  unfold after got
  cases he : runSteps n s <;> simp_all [isNext]

/-- An idle state in which detection is off has the invariant, when its registers have theirs. -/
theorem quiet_inv : quiet.Inv := by
  refine ⟨by decide, by decide, by decide, ?_, ?_, ?_, ?_, ?_, ?_, ?_⟩ <;> intro h <;> cases h

theorem starting_inv : starting.Inv := by
  refine ⟨by decide, by decide, by decide, ?_, ?_, ?_, ?_, ?_, ?_, ?_⟩
  · intro _; rfl
  · intro _; decide
  · intro _ h; exact absurd rfl h
  · intro _ h; exact absurd rfl h
  · intro _; decide
  · intro h; cases h
  · intro h; cases h

/-- `quiet` with detection enabled and `edge.prev` at the level present. -/
def armed : State := { quiet with edgeEn := true, edgePrev := true }

theorem armed_inv : armed.Inv := by
  refine ⟨by decide, by decide, by decide, ?_, ?_, ?_, ?_, ?_, ?_, ?_⟩
  iterate 5 (intro h; cases h)
  · intro _; decide
  · intro h; cases h

/-! ### Commands, one step each -/

/-- V1.1. -/
theorem test_nop : (issued .nop quiet).statusWord = 0#32 ∧ issued .nop quiet = quiet := by decide
/-- V2.1: BUSY while in progress. -/
theorem test_cfgOut_busy : (issued (.cfgOut .data true) quiet).statusWord = 0x01#32 := by decide
/-- R107: the action step drives the pin; V2.1. -/
theorem test_cfgOut_action :
    (turned .seq (issued (.cfgOut .data true) quiet)).linesWord = 0x03#32 := by decide
/-- V2.2: the latch is kept. -/
theorem test_cfgIn_action : (turned .seq (issued (.cfgIn .irq) driven)).linesWord = 0xEC#32 := by decide
/-- V2.10: DIRECTION, latch unchanged. -/
theorem test_set_direction :
    (issued (.set .data true) quiet).statusWord = 0x28#32 ∧ (issued (.set .data true) quiet).linesWord = 0#32 := by decide
/-- R109. -/
theorem test_set_action : (turned .seq (issued (.set .clk false) driven)).pin .clk = false := by decide
/-- V2.13. -/
theorem test_read : (issued (.read .irq) quiet).result = 1#32 ∧ (issued (.read .irq) quiet).statusWord = 0#32 := by decide
/-- V2.11: READ of an OUT line. -/
theorem test_read_direction : (issued (.read .clk) driven).statusWord = 0x28#32 := by decide
/-- V2.16: latch only, never busy. -/
theorem test_latch_input :
    (issued (.latch .rst true) quiet).linesWord = 0x80#32 ∧ (issued (.latch .rst true) quiet).statusWord = 0#32 := by decide
/-- V2.6: on an OUT line as SET. -/
theorem test_latch_output : (turned .seq (issued (.latch .clk false) driven)).pin .clk = false := by decide
/-- V3.1, R131: 33 micro-steps, the first drives DATA low. -/
theorem test_pullFrame :
    (issued .pullFrame quiet).seq.list.length = 33 ∧
    (turned .seq (issued .pullFrame quiet)).linesWord = 0x01#32 := by decide
/-- V4.3. -/
theorem test_resetPulse_direction : (issued .resetPulse quiet).statusWord = 0x28#32 := by decide
/-- V4.1. -/
theorem test_resetPulse_busy : (issued .resetPulse driven).statusWord = 0x01#32 := by decide
/-- V5.3. -/
theorem test_take : (issued .take { armed with pend := true }).statusWord = 0x04#32 := by decide
/-- V5.8: PEND is kept when detection is disabled. -/
theorem test_edgeEn_off : (issued (.edgeEn false) { armed with pend := true }).statusWord = 0x02#32 := by decide
/-- V5.5: no edge for the level already present. -/
theorem test_edgeEn_on :
    (turned .host { writing 0x9001#32 quiet with agenda := [] }).statusWord = 0x04#32 := by decide

/-! ### Agents, one step each -/

/-- V5.1. -/
theorem test_edge : (turned (.env .irq false) armed).statusWord = 0x06#32 := by decide
/-- V5.7. -/
theorem test_edge_disabled : (turned (.env .irq false) quiet).statusWord = 0#32 := by decide
/-- V5.12: a self-driven edge. -/
theorem test_edge_self_driven :
    (turned .seq (issued (.cfgOut .irq false) armed)).statusWord = 0x07#32 := by decide
/-- V2.15, V6.1, V6.2: BUSY beats ILLEGAL and DIRECTION. -/
theorem test_busy_first :
    (turned .host (writing 0x0000#32 starting)).statusWord = 0x39#32 ∧
    (turned .host (writing 0xF000#32 starting)).statusWord = 0x39#32 ∧
    (turned .host (writing 0x3001#32 starting)).statusWord = 0x39#32 := by decide
/-- V6.3: ILLEGAL beats DIRECTION. -/
theorem test_illegal_before_direction : (turned .host (writing 0x3002#32 quiet)).statusWord = 0x18#32 := by decide
/-- V6.5: the first cause is kept. -/
theorem test_first_cause_kept :
    (turned .host (writing 0xF000#32 (issued (.set .data true) quiet))).statusWord = 0x28#32 := by decide
/-- V6.8: a halfword write is BUS, not BUSY. -/
theorem test_bus_not_busy : (got starting (access (.write 0x1000 2 0x6000#32) starting)).statusWord = 0x49#32 := by decide
/-- V7.3, V7.4. -/
theorem test_bus_read :
    (got quiet (access (.read 0x1004 1) quiet)).statusWord = 0x48#32 ∧
    (got quiet (access (.read 0x1006 4) quiet)).host.data = 0#32 := by decide
/-- V7.1: CMD reads 0. -/
theorem test_read_cmd : (got quiet (access (.read 0x1000 4) { quiet with result := 0x83#32 })).host.data = 0#32 := by decide
/-- V7.8: little-endian byte lanes. -/
theorem test_window_bytes :
    ({ quiet with lines := ⟨⟨.inp, false⟩, ⟨.out, true⟩, ⟨.inp, false⟩, ⟨.out, true⟩⟩ }).windowByte 0xC = 0xCC#8 := by
  decide
/-- V7.9: a write while `rst_n` is asserted is ignored without a fault. -/
theorem test_write_in_reset :
    (got quiet (access (.write 0x1000 4 0x1301#32) { quiet with rstN := false })).statusWord = 0#32 := by decide
/-- R60: an address outside the window. -/
theorem test_outside_window : isNext (access (.read 0x1010 4) quiet) = false := by decide
/-- R30: a wait does not end before its bound, and ends at it. -/
theorem test_wait_bound :
    let s : State := { starting with
      params := { starting.params with tSettle := 25000 }, seq := { starting.seq with wait := .settle, since := 100 } }
    (turned .waitEnd { s with now := 25099 }).seq.wait = .settle ∧
    (turned .waitEnd { s with now := 25100 }).seq.wait = .none := by decide
/-- R135: a sample of 1 sets its bit, of 0 leaves it. -/
theorem test_sampleInto : sampleInto 0x80#8 1 true = 0x82#8 ∧ sampleInto 0x80#8 1 false = 0x80#8 := by decide
/-- The first instruction after reset runs (log entry 13). -/
theorem test_runs_after_reset :
    isNext (step (State.reset.withFetchWord 32 0x6000)) = true ∧
    (got State.reset (step (State.reset.withFetchWord 32 0x6000))).seq.cmd = .pullFrame := by decide
/-- V8.2, V8.7, V8.8, V8.11. -/
theorem test_consume :
    consume keys 0x01#8 = [.reportKey 10 true, .sync] ∧ consume keys 0x93#8 = [] ∧ consume keys 0xA1#8 = [] ∧
    consume keys 0x83#8 = [.reportKey 12 false, .sync] := by decide
/-- P2: the decode task claims the request first. -/
theorem test_decode_claims :
    (turned .host ({ armed with pend := true }.setProgram [.decodeTask])).statusWord = 0x04#32 ∧
    (turned .host ({ armed with pend := true }.setProgram [.decodeTask])).host.program = [.decodeTask] := by decide
/-- V8.2, R189: the dispatch reports the frame its decode read, whatever the host read since, and the decode is over. -/
theorem test_decode_dispatch :
    let t := turned .host ((decodingAt (.dispatch 0x01#8)).setData 0x83#32)
    t.host.sink = [.reportKey 10 true, .sync] ∧ t.host.engine = .idle ∧ t.host.program = [] := by decide
/-- R245: LATCH has no wait on an IN line, one on an OUT line. -/
theorem test_minimumTime_latch :
    let s : State := { driven with params := { driven.params with tSettle := 25000 } }
    s.minimumTime (.latch .data true) = 0 ∧ s.minimumTime (.latch .clk true) = 25000 := by decide
/-- File 95 section 2.8: the capability set. -/
theorem test_capabilitySet : capabilitySet keys = [10, 11, 12, 20, 21] := by decide

/-! ### Witnesses -/

theorem witness_Step_issues_decoded_command :
    (writing 0x6000#32 quiet).params.wf = true ∧ (writing 0x6000#32 quiet).rstN = true ∧
    (writing 0x6000#32 quiet).hostWrites 0x6000#32 ∧ decode 0x6000#32 = .ok .pullFrame ∧
    decodeTableWord 32 0x6000 = some .pullFrame :=
  ⟨by decide, rfl, ⟨rfl, rfl⟩, by decide, by decide⟩
/-- The same for the write the decode task makes. -/
theorem witness_Step_issues_for_decode_task :
    let s : State := { quiet.setProgram [.decodeTask] with agenda := [.host] }
    s.params.wf = true ∧ s.rstN = true ∧ s.hostWrites 0x8000#32 ∧ decode 0x8000#32 = .ok .take :=
  ⟨by decide, rfl, ⟨rfl, rfl⟩, by decide⟩
theorem witness_idle : quiet.seq.busy = false ∧ driven.seq.busy = false := by decide
theorem witness_Set_and_latch_start_on_output : driven.seq.busy = false ∧ (driven.lines.get .clk).dir = .out := by decide
theorem witness_Latch_and_Read_on_input : quiet.seq.busy = false ∧ (quiet.lines.get .rst).dir = .inp := by decide
theorem witness_ResetPulse_starts : driven.seq.busy = false ∧ driven.lines.rst.dir = .out := by decide
theorem witness_edgeEn_step_answers : isNext (endOfStep (exec (.edgeEn true) quiet)) = true := by decide
theorem witness_Busy_discards_word : starting.rstN = true ∧ starting.seq.busy = true := by decide
/-- Each clause of Direction_preconditions: SET, READ and RESET_PULSE fail and hold, another command holds. -/
theorem witness_Direction_preconditions :
    quiet.seq.busy = false ∧ driven.seq.busy = false ∧ (quiet.lines.get .clk).dir = .inp ∧
    (driven.lines.get .clk).dir = .out ∧ quiet.lines.rst.dir = .inp ∧ driven.lines.rst.dir = .out := by decide
theorem witness_Illegal_word_has_no_effect : quiet.rstN = true ∧ starting.rstN = true ∧ ∀ i, 0x0000F000#32 ≠ encode i := by
  refine ⟨rfl, rfl, ?_⟩
  rintro (_ | ⟨ln, lv⟩ | ln | ⟨ln, lv⟩ | ln | ⟨ln, lv⟩ | _ | _ | _ | lv) <;> (try cases ln) <;> (try cases lv) <;> decide
theorem witness_Bus_error_on_bad_access :
    quiet.rstN = true ∧ (0 < 16 ∧ ((1 : Nat) ≠ 4 ∨ 0 % 4 ≠ 0)) ∧ (15 < 16 ∧ ((4 : Nat) ≠ 4 ∨ 15 % 4 ≠ 0)) := by decide
theorem witness_Bus_error_on_readonly_write :
    quiet.rstN = true ∧ ∀ off ∈ [4, 8, 12], off = 0x4 ∨ off = 0x8 ∨ off = 0xC := by decide
/-- A step that records a fault, and a step after a fault. -/
theorem witness_Fault_sticky_and_only_from_host :
    isNext (step (writing 0xF000#32 quiet)) = true ∧ (writing 0xF000#32 quiet).nextTurn ≠ .rstN false ∧
    (writing 0xF000#32 quiet).fault = false ∧ (got quiet (step (writing 0xF000#32 quiet))).fault = true ∧
    isNext (step { quiet with fault := true, fcause := 2#4, agenda := [.seq] }) = true := by decide
theorem witness_Read_step_has_no_side_effect :
    let s : State := { armed with agenda := [.host], host := { armed.host with program := [.access (.read 0x100C 4)] } }
    s.Inv ∧ s.params.wf = true ∧ s.rstN = true ∧ s.nextTurn = .host ∧
      s.popTurn.nextHostOp = .access (.read (s.params.base + 12) 4) := by
  refine ⟨?_, by decide, rfl, rfl, rfl⟩
  have h := armed_inv
  exact ⟨h.faultCause, h.causeRange, h.resultHigh, h.seqList, h.seqIndex, h.seqWait, h.seqSince, h.seqLegal, h.edgePrev,
    h.inReset⟩
theorem witness_Window_bytes : ∀ r ∈ [0, 3], ∀ i ∈ [0, 3], ∀ b ∈ [0, 7], r < 4 ∧ i < 4 ∧ b < 8 := by decide
theorem witness_WaitIdle_polls_busy :
    starting.rstN = true ∧ starting.seq.busy = true ∧ quiet.rstN = true ∧ quiet.seq.busy = false := by decide
/-- A request with no task scheduled, with one in progress and none scheduled, with one scheduled; and no request. -/
theorem witness_IrqEntry :
    ({ quiet with pend := true }).irqOut = true ∧ ({ quiet with pend := true }).decodeScheduled = false ∧
    (decodingAt .wait).host.engine = .decoding .wait ∧ HostOp.decodeTask ∈ (decodingAt .wait).host.program ∧
    (decodingAt .wait).decodeScheduled = false ∧ quiet.irqOut = false ∧
    (quiet.setProgram [.decodeTask]).decodeScheduled = true := by
  decide
theorem witness_Decode_task :
    quiet.rstN = true ∧ quiet.seq.busy = false ∧ quiet.host.engine = .idle ∧
    ∀ g ∈ [DecodeStage.pull, .wait, .read, .dispatch 0x80#8],
      (decodingAt g).rstN = true ∧ (decodingAt g).seq.busy = false ∧ (decodingAt g).host.engine = .decoding g := by
  decide
/-- Each stage of a decode moves the engine, and the dispatch calls the sink. -/
theorem witness_Engine_moves :
    (∀ s ∈ [quiet.setProgram [.decodeTask], decodingAt .pull, decodingAt .wait, decodingAt .read,
        decodingAt (.dispatch 0x00#8)],
      isNext (step { s with agenda := [.host] }) = true ∧ (turned .host s).host.engine ≠ s.host.engine) ∧
    (turned .host (decodingAt (.dispatch 0x00#8))).host.sink ≠ (decodingAt (.dispatch 0x00#8)).host.sink := by
  decide
theorem witness_Block_reset_values :
    ({ starting with agenda := [.rstN false] }).params.wf = true ∧
    ({ starting with agenda := [.rstN false] }).nextTurn = .rstN false := by decide
theorem witness_Accesses_during_reset : ({ quiet with rstN := false }).rstN = false ∧ 0 < 16 ∧ 15 < 16 := by decide
theorem witness_Pins_checked :
    ({ quiet with params := pins 5 6 7 0 }).params.pin.get .rst = 0 ∧ Line.data ≠ Line.rst ∧
    ({ quiet with params := pins 5 6 7 5 }).params.pin.get .data =
      ({ quiet with params := pins 5 6 7 5 }).params.pin.get .rst ∧
    isNext (step { quiet with agenda := [.seq] }) = true := by decide
/-- Seq_action_step at each of the four actions. -/
theorem witness_Seq_action_step :
    ∀ a ∈ [Action.cfgOut .clk true, .cfgIn .rst, .drive .clk false, .sample 7],
      let s : State := { driven with seq := { starting.seq with list := [⟨a, .settle⟩] } }
      s.rstN = true ∧ s.seq.busy = true ∧ s.seq.wait = .none ∧ s.seq.list[s.seq.k]? = some ⟨a, .settle⟩ := by decide
/-- Seq_finish_step, of a PULL_FRAME and of another command. -/
theorem witness_Seq_finish_step :
    ∀ c ∈ [Instr.pullFrame, .cfgOut .clk true],
      let s : State := { driven with seq := { starting.seq with cmd := c, k := 1 } }
      s.rstN = true ∧ s.seq.busy = true ∧ s.seq.wait = .none ∧ s.seq.k = s.seq.list.length := by decide
/-- Wait_is_a_lower_bound: a wait that goes on, and one that ends. -/
theorem witness_Wait_is_a_lower_bound :
    ∀ t ∈ [Turn.seq, .waitEnd],
      let s : State := { starting with seq := { starting.seq with k := 1, wait := .settle }, agenda := [t] }
      isNext (step s) = true ∧ s.seq.busy = true ∧ s.seq.wait ≠ .none ∧ (got s (step s)).rstN = true := by decide

theorem witness_accepted :
    Accepted (.cfgOut .clk true) quiet (issued (.cfgOut .clk true) quiet) ∧
    Accepted (.cfgIn .clk) quiet (issued (.cfgIn .clk) quiet) ∧
    Accepted (.set .clk false) driven (issued (.set .clk false) driven) ∧
    Accepted (.latch .clk false) driven (issued (.latch .clk false) driven) ∧
    Accepted .pullFrame quiet (issued .pullFrame quiet) ∧
    Accepted .resetPulse driven (issued .resetPulse driven) :=
  ⟨accepted_of (by decide), accepted_of (by decide), accepted_of (by decide), accepted_of (by decide),
    accepted_of (by decide), accepted_of (by decide)⟩
theorem witness_Every_transition_settles :
    (issued .pullFrame quiet).seq.list ≠ [] ∧ (issued .resetPulse driven).seq.list ≠ [] := by decide

theorem witness_Step_keeps_invariant : armed.Inv ∧ isNext (step { armed with agenda := [.env .irq false] }) = true :=
  ⟨armed_inv, by decide⟩
/-- The two clauses of Pend_rises: a fall while enabled, a pending request while disabled. -/
theorem witness_Pend_rises_exactly_on_falling_edge :
    (let s : State := { armed with agenda := [.env .irq false] }
     let t := got s (step s)
     isNext (step s) = true ∧ s.edgeEn = true ∧ t.edgeEn = true ∧ s.pin .irq = true ∧ t.pin .irq = false ∧
       s.pend = false ∧ t.pend = true) ∧
    (let s : State := { quiet with pend := true, agenda := [.seq] }
     isNext (step s) = true ∧ s.edgeEn = false ∧ (got s (step s)).pend = true) := by decide
theorem witness_Pend_falls_only_by_take :
    let s := writing 0x8000#32 { armed with pend := true }
    isNext (step s) = true ∧ s.pend = true ∧ (got s (step s)).pend = false := by decide
theorem witness_Result_written :
    (let s := writing 0x4200#32 quiet
     isNext (step s) = true ∧ (got s (step s)).result ≠ s.result) ∧
    (let s : State := { quiet with acc := 0x83#8, agenda := [.seq],
                                   seq := { starting.seq with cmd := .pullFrame, k := 1 } }
     isNext (step s) = true ∧ (got s (step s)).result ≠ s.result) := by decide
theorem witness_Lines_written :
    isNext (step starting) = true ∧ (got starting (step starting)).lines ≠ starting.lines ∧
    (let s := writing 0x5001#32 quiet
     isNext (step s) = true ∧ (got s (step s)).lines ≠ s.lines) := by decide
theorem witness_Env_step_is_isolated :
    let s : State := { driven with agenda := [.env .clk true] }
    s.params.wf = true ∧ s.nextTurn = .env .clk true ∧ isNext (step s) = true ∧ (s.lines.get .clk).dir = .out := by decide

/-! Whole commands: with no least wait a line command takes 3 turns (file 95 section 2.2), RESET_PULSE 7 (V4.5) and
PULL_FRAME 59 (V3.12). -/

def lineTurns : List Turn := [.seq, .waitEnd, .seq]
def pulseTurns : List Turn := [.seq, .waitEnd, .seq, .waitEnd, .seq, .waitEnd, .seq]
def pullTurns : List Turn :=
  (pullList.flatMap fun m => if m.wait = .none then [.seq] else [.seq, .waitEnd]) ++ [.seq]

/-- Command `i` just accepted in `s`, with these turns to come. -/
def running (i : Instr) (s : State) (ts : List Turn) : State := issued i { s with agenda := ts }

/-- What a witness of a whole command must meet: acceptance, a run inside the command, and its finish. -/
def Finishes (i : Instr) (s : State) (ts : List Turn) : Prop :=
  Accepted i { s with agenda := ts } (running i s ts) ∧
  WithinCommand ts.length (running i s ts) (after ts.length (running i s ts)) ∧
  (after ts.length (running i s ts)).seq.busy = false

theorem finishes_of {i : Instr} {s : State} {ts : List Turn}
    (h : (acceptedB i { s with agenda := ts } && withinB ts.length (running i s ts) &&
      !(after ts.length (running i s ts)).seq.busy) = true) : Finishes i s ts := by
  simp only [Bool.and_eq_true, Bool.not_eq_true'] at h
  exact ⟨accepted_of h.1.1, within_of h.1.2, h.2⟩

theorem witness_Line_commands_end_state :
    Finishes (.cfgOut .clk true) quiet lineTurns ∧ Finishes (.cfgIn .clk) quiet lineTurns ∧
    Finishes (.set .clk false) driven lineTurns ∧ Finishes (.latch .clk false) driven lineTurns :=
  ⟨finishes_of (by decide), finishes_of (by decide), finishes_of (by decide), finishes_of (by decide)⟩
/-- In progress after one step, and finished after three. -/
theorem witness_Command_runs_its_list_in_order :
    WithinCommand 1 (running (.cfgOut .clk true) quiet lineTurns)
      (after 1 (running (.cfgOut .clk true) quiet lineTurns)) ∧
    (after 1 (running (.cfgOut .clk true) quiet lineTurns)).seq.busy = true ∧
    Finishes (.cfgOut .clk true) quiet lineTurns :=
  ⟨within_of (by decide), by decide, finishes_of (by decide)⟩
theorem witness_Configuration_is_idempotent :
    ∀ i, i = Instr.cfgOut .clk true ∨ i = .cfgIn .clk →
      let s := running i quiet (lineTurns ++ lineTurns)
      let t := after 3 s
      Accepted i { quiet with agenda := lineTurns ++ lineTurns } s ∧ WithinCommand 3 s t ∧ t.seq.busy = false ∧
        Accepted i t (issued i t) ∧ WithinCommand 3 (issued i t) (after 3 (issued i t)) ∧
        (after 3 (issued i t)).seq.busy = false := by
  rintro i (rfl | rfl)
  · exact ⟨accepted_of (by decide), within_of (by decide), by decide, accepted_of (by decide), within_of (by decide),
      by decide⟩
  · exact ⟨accepted_of (by decide), within_of (by decide), by decide, accepted_of (by decide), within_of (by decide),
      by decide⟩
theorem witness_ResetPulse_waveform : Finishes .resetPulse driven pulseTurns := finishes_of (by decide)
/-- A whole PULL_FRAME meets the hypotheses of the PULL_FRAME statements and of the least time; with `ext[DATA] = 1`
throughout it reads 0xFF (V3.2). -/
theorem witness_PullFrame_run :
    Finishes .pullFrame quiet pullTurns ∧ pullTurns.length = 59 ∧
    (after 59 (running .pullFrame quiet pullTurns)).result = 0xFF#32 :=
  ⟨finishes_of (by decide), by decide, by decide⟩

/-- `starting` one action later, its wait in progress. -/
def waiting : State :=
  { starting with
    lines := { starting.lines with clk := ⟨.out, true⟩ }
    seq := { starting.seq with k := 1, wait := .settle }
    agenda := [.waitEnd] }

theorem waiting_inv : waiting.Inv := by
  refine ⟨by decide, by decide, by decide, ?_, ?_, ?_, ?_, ?_, ?_, ?_⟩
  · intro _; rfl
  · intro _; decide
  · intro _ _; exact ⟨⟨.cfgOut .clk true, .settle⟩, by decide, rfl, rfl⟩
  · intro _ _; decide
  · intro _; decide
  · intro h; cases h
  · intro h; cases h

/-- Progress_is_monotone at a turn of SEQ and at the end of a wait, and Every_command_can_finish. -/
theorem witness_Progress_and_finish :
    (starting.Inv ∧ isNext (step starting) = true ∧ starting.seq.busy = true ∧ starting.rstN = true ∧
      starting.params.wf = true ∧ starting.nextTurn = .seq ∧ starting.seq.wait = .none) ∧
    (waiting.Inv ∧ isNext (step waiting) = true ∧ waiting.seq.busy = true ∧ waiting.rstN = true ∧
      waiting.nextTurn = .waitEnd ∧ waiting.seq.wait ≠ .none ∧ waiting.waitOver = true) :=
  ⟨⟨starting_inv, by decide, rfl, rfl, by decide, rfl, rfl⟩, ⟨waiting_inv, by decide, rfl, rfl, rfl, by decide, by decide⟩⟩
theorem witness_Lookup_stays_in_keymap : keys.wf = true ∧ 1 < keys.rows ∧ 2 < keys.cols := by decide
theorem witness_Frame_emission :
    keys.wf = true ∧ (frameRow 0x12#8 < keys.rows ∧ frameCol 0x12#8 < keys.cols) ∧ keys.cols ≤ frameCol 0x04#8 ∧
    keys.rows ≤ frameRow 0xA1#8 := by decide
theorem witness_Capability_set : SinkCall.reportKey 21 true ∈ consume keys 0x12#8 := by decide

end Sys2Proof.Tests
end

