-- ==== Sys2Proof/Proofs/Scope.lean ====
section
/-! PROOF. The block a step is given for (file 00 R10): what the check of the pin identifiers says line by line, and
that no turn of any agent changes the parameters (file 10 R38). -/

namespace Sys2Proof

theorem Line.forall_iff {P : Line → Prop} : (∀ l, P l) ↔ P .data ∧ P .clk ∧ P .irq ∧ P .rst :=
  ⟨fun h => ⟨h _, h _, h _, h _⟩, fun ⟨hd, hc, hi, hr⟩ l => by cases l <;> assumption⟩

theorem Params.pinsPresent_iff (p : Params) : p.pinsPresent = true ↔ ∀ l, p.pin.get l ≠ 0 := by
  simp [Params.pinsPresent, Line.forall_iff, PerLine.get, and_assoc]

/-- The check compares each unordered pair of lines once. -/
theorem Params.pinsDistinct_iff (p : Params) :
    p.pinsDistinct = true ↔ ∀ l m, l ≠ m → p.pin.get l ≠ p.pin.get m := by
  simp only [Params.pinsDistinct, Bool.and_eq_true, bne_iff_ne, and_assoc]
  constructor
  · rintro ⟨hdc, hdi, hdr, hci, hcr, hir⟩
    simp [Line.forall_iff, PerLine.get, hdc, hdi, hdr, hci, hcr, hir, hdc.symm, hdi.symm, hdr.symm, hci.symm,
      hcr.symm, hir.symm]
  · intro h
    exact ⟨h .data .clk nofun, h .data .irq nofun, h .data .rst nofun,
      h .clk .irq nofun, h .clk .rst nofun, h .irq .rst nofun⟩

/-- The PinSet invariant, over the lines (file 00 R10). -/
theorem Params.wf_iff (p : Params) :
    p.wf = true ↔ (∀ l, p.pin.get l ≠ 0) ∧ ∀ l m, l ≠ m → p.pin.get l ≠ p.pin.get m := by
  simp only [Params.wf, Bool.and_eq_true, p.pinsPresent_iff, p.pinsDistinct_iff]

end Sys2Proof

namespace Sys2Proof.Machine

/-! ### The parameters are kept (file 10 R38) -/

@[simp] theorem State.rstTurn_params (s : State) (b : Level) : (s.rstTurn b).params = s.params := by
  cases b <;> rfl

@[simp] theorem State.actionStep_params (s : State) (m : MicroStep) : (s.actionStep m).params = s.params := by
  unfold State.actionStep
  rw [State.setSeq_params, perform_eq]

@[simp] theorem State.finishStep_params (s : State) : s.finishStep.params = s.params := by
  unfold State.finishStep
  rw [State.setSeq_params]
  split <;> rfl

@[simp] theorem acceptance_params (i : Instr) (s : State) : (acceptance i s).params = s.params := by
  cases i with
  | latch l v => simp only [acceptance]; split <;> rfl
  | _ => rfl

theorem SameBlock.params_eq {s v : State} (h : SameBlock s v) : v.params = s.params := by
  obtain ⟨_, _, _, rfl⟩ := h
  rfl

theorem TurnEffect.params_eq {s v u : State} {n : Turn} (h : TurnEffect s v n u) : u.params = v.params := by
  cases h <;> simp

theorem step_params {s t : State} (h : step s = .next t) : t.params = s.params := by
  obtain ⟨_, v, u, hv, hu, rfl⟩ := step_cases h
  rw [State.edgeDetect_params, hu.params_eq, hv.params_eq]

/-! ### The check of the pin identifiers (file 00 R10) -/

theorem step_refused_of_not_wf {s : State} (h : ¬ s.params.wf = true) : step s = .refused .badPinSet :=
  if_neg h

/-- Settles O36: the step's check is the PinSet invariant over the lines, and what a turn does to the block, whichever
agent's it is, leaves the parameters as they were. -/
theorem pins_checked_and_parameters_kept : Obligations.Pins_checked_and_parameters_kept := by
  refine ⟨fun s hbad => step_refused_of_not_wf fun hwf => ?_, fun s t h => ?_⟩
  · obtain ⟨hzero, hrepeat⟩ := s.params.wf_iff.1 hwf
    obtain ⟨l, hl⟩ | ⟨l, m, hlm, heq⟩ := hbad
    · exact hzero l hl
    · exact hrepeat l m hlm heq
  · exact ⟨step_params h, s.params.wf_iff.1 (step_next_iff.1 h).1⟩

end Sys2Proof.Machine
end

section
/-! PROOF. The state of the block (file 10): the layout of STATUS and LINES, reads of the window, the values after a
reset, what a step can do to each element, the invariant every step keeps, and a schedule that finishes any command. -/

namespace Sys2Proof

/-- Bits 31:8 of a byte extended to a word are 0. -/
theorem high_bits_of_byte (b : Byte) : (b.zeroExtend 32 : Word).extractLsb' 8 24 = 0#24 := by
  ext i hi
  simp

/-! ### A decoded word is its command's -/

theorem encode_of_decodeFields {op : BitVec 4} {ln : BitVec 2} {lv : Level} {i : Instr}
    (h : decodeFields op ln lv = .ok i) : enc op ln lv = encode i := by
  have hrows : ∀ (op : BitVec 4) (ln : BitVec 2) (lv : Level),
      ((decodeFields op ln lv).toOption.all fun i => enc op ln lv == encode i) = true := by decide
  simpa [h, Except.toOption] using hrows op ln lv

/-- Decoding loses nothing: a word that decodes to a command is that command's word (file 30 R81, R83). -/
theorem eq_encode_of_decode {w : Word} {i : Instr} (h : decode w = .ok i) : w = encode i := by
  unfold decode at h
  split at h
  · rename_i hr
    rw [eq_enc_of_reservedZero hr, encode_of_decodeFields h]
  · cases h

end Sys2Proof

namespace Sys2Proof.Machine

/-! ### Lines and pins -/

theorem State.isOut_iff {s : State} {l : Line} : s.isOut l = true ↔ (s.lines.get l).dir = .out := beq_iff_eq

theorem State.isIn_iff {s : State} {l : Line} : s.isIn l = true ↔ (s.lines.get l).dir = .inp := beq_iff_eq

theorem State.dir_of_not_isOut {s : State} {l : Line} (h : ¬ s.isOut l = true) : (s.lines.get l).dir = .inp := by
  rw [State.isOut_iff] at h
  cases hd : (s.lines.get l).dir
  · rfl
  · exact absurd hd h

theorem State.pin_of_out {s : State} {l : Line} (h : (s.lines.get l).dir = .out) :
    s.pin l = (s.lines.get l).lat := by
  simp [State.pin, State.line, pinOf, h]

theorem State.pin_of_inp {s : State} {l : Line} (h : (s.lines.get l).dir = .inp) : s.pin l = s.ext.get l := by
  simp [State.pin, State.line, pinOf, h]

/-- Settles O22: one case for each direction (file 10 R25). -/
theorem pin_level : Obligations.Pin_level := by
  intro s l
  cases hd : (s.lines.get l).dir with
  | out => simp [State.pin_of_out hd]
  | inp => simp [State.pin_of_inp hd]

/-! ### What accepting a command changes -/

@[simp] theorem acceptance_rstN (i : Instr) (s : State) : (acceptance i s).rstN = s.rstN := by
  cases i with
  | latch l v => simp only [acceptance]; split <;> rfl
  | _ => rfl

@[simp] theorem acceptance_fault (i : Instr) (s : State) : (acceptance i s).fault = s.fault := by
  cases i with
  | latch l v => simp only [acceptance]; split <;> rfl
  | _ => rfl

@[simp] theorem acceptance_fcause (i : Instr) (s : State) : (acceptance i s).fcause = s.fcause := by
  cases i with
  | latch l v => simp only [acceptance]; split <;> rfl
  | _ => rfl

/-- Accepting a command starts its own micro-steps, touching no line, or leaves SEQ as it is (file 40 R101). -/
theorem acceptance_seq_cases (i : Instr) (s : State) :
    (acceptance i s).seq = s.seq ∨
    ((acceptance i s).seq =
        { busy := true, cmd := i, list := microSteps i, k := 0, wait := .none, since := s.seq.since } ∧
      (acceptance i s).lines = s.lines) := by
  cases i with
  | nop | read | take | edgeEn => exact .inl rfl
  | cfgOut | cfgIn | set | pullFrame | resetPulse => exact .inr ⟨rfl, rfl⟩
  | latch l v =>
    simp only [acceptance]
    split
    · exact .inr ⟨rfl, rfl⟩
    · exact .inl rfl

/-- Of the commands only READ writes RESULT in its issuing step (file 10 R28). -/
theorem acceptance_result_cases (i : Instr) (s : State) :
    (acceptance i s).result = s.result ∨
    ∃ l, i = .read l ∧ (acceptance i s).result = levelWord (s.pin l) := by
  cases i with
  | read l => exact .inr ⟨l, rfl, rfl⟩
  | latch l v => left; simp only [acceptance]; split <;> rfl
  | _ => exact .inl rfl

/-- Of the commands only LATCH of an IN line writes a line in its issuing step (file 40 R110). -/
theorem acceptance_lines_cases (i : Instr) (s : State) :
    (acceptance i s).lines = s.lines ∨
    ∃ l v, i = .latch l v ∧ (s.lines.get l).dir = .inp ∧ (acceptance i s).lines = s.lines.put l ⟨.inp, v⟩ := by
  cases i with
  | latch l v =>
    simp only [acceptance]
    split
    · exact .inl rfl
    · have hd := State.dir_of_not_isOut ‹¬ s.isOut l = true›
      exact .inr ⟨l, v, rfl, hd, by simp [State.line, hd]⟩
  | _ => exact .inl rfl

/-! ### What SEQ's steps change -/

@[simp] theorem State.actionStep_seq (s : State) (m : MicroStep) :
    (s.actionStep m).seq = { s.seq with k := s.seq.k + 1, wait := m.wait, since := s.now } := rfl

@[simp] theorem State.actionStep_lines (s : State) (m : MicroStep) :
    (s.actionStep m).lines = lineEffect s.lines m.action := perform_lines s m.action

@[simp] theorem State.actionStep_result (s : State) (m : MicroStep) : (s.actionStep m).result = s.result := by
  unfold State.actionStep; rw [State.setSeq_result, perform_eq]

@[simp] theorem State.actionStep_fault (s : State) (m : MicroStep) : (s.actionStep m).fault = s.fault := by
  unfold State.actionStep; rw [State.setSeq_fault, perform_eq]

@[simp] theorem State.actionStep_fcause (s : State) (m : MicroStep) : (s.actionStep m).fcause = s.fcause := by
  unfold State.actionStep; rw [State.setSeq_fcause, perform_eq]

@[simp] theorem State.actionStep_rstN (s : State) (m : MicroStep) : (s.actionStep m).rstN = s.rstN := by
  unfold State.actionStep; rw [State.setSeq_rstN, perform_eq]

@[simp] theorem State.actionStep_now (s : State) (m : MicroStep) : (s.actionStep m).now = s.now := by
  unfold State.actionStep; rw [State.setSeq_now, perform_eq]

@[simp] theorem State.actionStep_agenda (s : State) (m : MicroStep) : (s.actionStep m).agenda = s.agenda := by
  unfold State.actionStep; rw [State.setSeq_agenda, perform_eq]

/-- The finish is one update: BUSY falls, and PULL_FRAME copies ACC to RESULT (file 40 R103). -/
theorem State.finishStep_eq (s : State) :
    s.finishStep = { s with
      result := if s.seq.cmd = .pullFrame then s.acc.zeroExtend 32 else s.result
      seq := { s.seq with busy := false } } := by
  unfold State.finishStep
  cases hc : s.seq.cmd <;> simp [State.setSeq, State.setResult, hc]

/-! ### What a turn can do to RESULT, to the lines and to FAULT -/

/-- RESULT stays, or it is reset, takes the level READ, or takes ACC at the finish of PULL_FRAME (file 10 R28, R39). -/
theorem TurnEffect.result_cases {s v u : State} {n : Turn} (h : TurnEffect s v n u) :
    u.result = v.result ∨
    (n = .rstN false ∧ u.result = 0#32) ∨
    (∃ l b, s.hostWrites (encode (.read l)) ∧ v.seq.busy = false ∧ (v.lines.get l).dir = .inp ∧
      u.result = levelWord b) ∨
    (n = .seq ∧ v.seq.busy = true ∧ v.seq.cmd = .pullFrame ∧ v.seq.k = v.seq.list.length ∧ u.seq.busy = false ∧
      u.result = v.acc.zeroExtend 32) := by
  cases h with
  | idle | fault | waitOver | clock | env => exact .inl rfl
  | action m => exact .inl (v.actionStep_result m)
  | rst b =>
    cases b with
    | true => exact .inl rfl
    | false => exact .inr (.inl ⟨rfl, rfl⟩)
  | accept w i hr hw hd hb hp =>
    obtain hres | ⟨l, rfl, hres⟩ := acceptance_result_cases i v
    · exact .inl hres
    · exact .inr (.inr (.inl ⟨l, _, eq_encode_of_decode hd ▸ hw, hb, State.isIn_iff.1 hp, hres⟩))
  | finish hr hk =>
    obtain ⟨-, hb, -⟩ := seqReady_iff.1 hr
    rw [State.finishStep_eq]
    by_cases hc : v.seq.cmd = .pullFrame
    · exact .inr (.inr (.inr ⟨rfl, hb, hc, hk, rfl, if_pos hc⟩))
    · exact .inl (if_neg hc)

/-- The lines stay, or they are reset, SEQ performs an action on them, or LATCH writes one IN line's latch (file 10 R22,
R39). -/
theorem TurnEffect.lines_cases {s v u : State} {n : Turn} (h : TurnEffect s v n u) :
    u.lines = v.lines ∨
    n = .rstN false ∨
    (n = .seq ∧ v.seqReady = true ∧ ∃ m, v.seq.list[v.seq.k]? = some m ∧ u.lines = lineEffect v.lines m.action) ∨
    (∃ l b, s.hostWrites (encode (.latch l b)) ∧ v.seq.busy = false ∧ (v.lines.get l).dir = .inp ∧
      u.lines = v.lines.put l ⟨.inp, b⟩) := by
  cases h with
  | idle | fault | waitOver | clock | env => exact .inl rfl
  | finish => exact .inl (by rw [State.finishStep_eq])
  | action m hr hm => exact .inr (.inr (.inl ⟨rfl, hr, m, hm, v.actionStep_lines m⟩))
  | rst b =>
    cases b with
    | true => exact .inl rfl
    | false => exact .inr (.inl rfl)
  | accept w i hr hw hd hb hp =>
    obtain hl | ⟨l, b, rfl, hdir, hl⟩ := acceptance_lines_cases i v
    · exact .inl hl
    · exact .inr (.inr (.inr ⟨l, b, eq_encode_of_decode hd ▸ hw, hb, hdir, hl⟩))

/-- FAULT and FCAUSE stay, or they are reset, or a cause is recorded (file 60 R202). -/
theorem TurnEffect.fault_cases {s v u : State} {n : Turn} (h : TurnEffect s v n u) :
    (u.fault = v.fault ∧ u.fcause = v.fcause) ∨
    (n = .rstN false ∧ u.fault = false ∧ u.fcause = 0#4) ∨
    (n = .host ∧ u.fault = true ∧ ∃ c, u.fcause = if v.fault then v.fcause else causeCode c) := by
  cases h with
  | idle | waitOver | clock | env => exact .inl ⟨rfl, rfl⟩
  | fault c => exact .inr (.inr ⟨rfl, rfl, c, rfl⟩)
  | accept w i => exact .inl ⟨acceptance_fault i v, acceptance_fcause i v⟩
  | action m => exact .inl ⟨v.actionStep_fault m, v.actionStep_fcause m⟩
  | finish => exact .inl (by rw [State.finishStep_eq]; exact ⟨rfl, rfl⟩)
  | rst b =>
    cases b with
    | true => exact .inl ⟨rfl, rfl⟩
    | false => exact .inr (.inl ⟨rfl, rfl, rfl⟩)

/-- Settles O44: the edge detector leaves RESULT, and of the turns only those of `TurnEffect.result_cases` write it. -/
theorem result_written_only_by_read_and_pull : Obligations.Result_written_only_by_read_and_pull := by
  intro s t h hne
  obtain ⟨-, v, u, ⟨hs, d, ag, rfl⟩, hu, rfl⟩ := step_cases h
  obtain hres | ⟨hn, -⟩ | ⟨l, b, hw, hb, hd, -⟩ | ⟨hn, hb, hc, hk, hidle, -⟩ := hu.result_cases
  · exact absurd (u.edgeDetect_result.trans hres) hne
  · exact .inl hn
  · exact .inr (.inl ⟨l, hw, hb, hd⟩)
  · exact .inr (.inr ⟨hn, hb, hc, hk, by simpa using hidle⟩)

/-- Settles O45: the edge detector leaves the lines, and of the turns only those of `TurnEffect.lines_cases` write
them. -/
theorem lines_written_only_by_commands : Obligations.Lines_written_only_by_commands := by
  intro s t h hne
  obtain ⟨-, v, u, ⟨hs, d, ag, rfl⟩, hu, rfl⟩ := step_cases h
  rw [State.edgeDetect_lines] at hne ⊢
  obtain hl | hn | ⟨hn, hr, m, hm, hl⟩ | ⟨l, b, hw, hb, hd, hl⟩ := hu.lines_cases
  · exact absurd hl hne
  · exact .inl hn
  · obtain ⟨-, hb, hwait⟩ := seqReady_iff.1 hr
    exact .inr (.inl ⟨hn, hb, hwait, m, hm, hl⟩)
  · exact .inr (.inr ⟨l, b, hw, hb, hd, hl⟩)

/-! ### The invariant -/

/-- What the invariant says of FAULT and FCAUSE (file 10 R34, file 60 R200). -/
def State.FaultAgrees (s : State) : Prop := (s.fault = false ↔ s.fcause = 0#4) ∧ s.fcause.toNat ≤ 4

/-- What the invariant says of a command in progress (file 10 R29, file 40 R101 to R104). -/
structure State.RunsItsCommand (s : State) : Prop where
  list : s.seq.list = microSteps s.seq.cmd
  index : s.seq.k ≤ s.seq.list.length
  wait : s.seq.wait ≠ .none → ∃ m, s.seq.k ≠ 0 ∧ s.seq.list[s.seq.k - 1]? = some m ∧ m.wait = s.seq.wait
  since : s.seq.wait ≠ .none → s.seq.since ≤ s.now
  legal : legal s.lines (s.seq.list.drop s.seq.k) = true

/-- What the invariant says of a block held in reset (file 70 R230). -/
def State.HeldInReset (s : State) : Prop :=
  s.lines = linesReset ∧ s.seq.busy = false ∧ s.result = 0#32 ∧ s.edgeEn = false ∧ s.pend = false ∧ s.fault = false

theorem State.Inv.faultAgrees {s : State} (h : s.Inv) : s.FaultAgrees := ⟨h.faultCause, h.causeRange⟩

theorem State.Inv.runsItsCommand {s : State} (h : s.Inv) (hb : s.seq.busy = true) : s.RunsItsCommand :=
  ⟨h.seqList hb, h.seqIndex hb, h.seqWait hb, h.seqSince hb, h.seqLegal hb⟩

theorem inv_of_parts {s : State} (hfault : s.FaultAgrees) (hresult : s.result.extractLsb' 8 24 = 0#24)
    (hseq : s.seq.busy = true → s.RunsItsCommand) (hedge : s.edgeEn = true → s.edgePrev = s.pin .irq)
    (hreset : s.rstN = false → s.HeldInReset) : s.Inv :=
  ⟨hfault.1, hfault.2, hresult, fun h => (hseq h).list, fun h => (hseq h).index, fun h => (hseq h).wait,
    fun h => (hseq h).since, fun h => (hseq h).legal, hedge, hreset⟩

/-- The host and the schedule are no part of the invariant. -/
theorem SameBlock.inv {s v : State} (h : SameBlock s v) (hi : s.Inv) : v.Inv := by
  obtain ⟨hs, d, ag, rfl⟩ := h
  exact ⟨hi.faultCause, hi.causeRange, hi.resultHigh, hi.seqList, hi.seqIndex, hi.seqWait, hi.seqSince, hi.seqLegal,
    hi.edgePrev, hi.inReset⟩

/-- The time only grows, so what holds of a command in progress holds while SEQ and the lines stay. -/
theorem State.RunsItsCommand.of_same_seq {v u : State} (h : v.RunsItsCommand) (hseq : u.seq = v.seq)
    (hlines : u.lines = v.lines) (hnow : v.now ≤ u.now) : u.RunsItsCommand := by
  refine ⟨?_, ?_, ?_, ?_, ?_⟩ <;> rw [hseq]
  · exact h.list
  · exact h.index
  · exact h.wait
  · exact fun hw => (h.since hw).trans hnow
  · rw [hlines]; exact h.legal

/-- PULL_LIST sets the directions it needs itself (file 40 R112, file 41 R131). -/
theorem legal_pullList (ls : PerLine LineState) : legal ls pullList = true := rfl

/-- The direction precondition is what makes a command's list legal (file 40 R112). -/
theorem legal_microSteps {i : Instr} {s : State} (hp : directionOk i s = true)
    (hlatch : ∀ l v, i = .latch l v → s.isOut l = true) : legal s.lines (microSteps i) = true := by
  cases i with
  | set l v => simpa [microSteps, legal] using State.isOut_iff.1 hp
  | latch l v => simpa [microSteps, legal] using State.isOut_iff.1 (hlatch l v rfl)
  | resetPulse =>
    have hd : s.lines.rst.dir = .out := State.isOut_iff.1 hp
    simp [microSteps, resetPulseList, legal, lineEffect, PerLine.get, PerLine.put, hd]
  | pullFrame => exact legal_pullList s.lines
  | _ => rfl

/-- A command just accepted starts its own list, which finds its lines as it needs them. -/
theorem acceptance_runsItsCommand {i : Instr} {s : State} (hb : s.seq.busy = false) (hp : directionOk i s = true)
    (hbusy : (acceptance i s).seq.busy = true) : (acceptance i s).RunsItsCommand := by
  obtain hseq | ⟨hseq, hlines⟩ := acceptance_seq_cases i s
  · rw [hseq, hb] at hbusy
    cases hbusy
  · have hlatch : ∀ l v, i = .latch l v → s.isOut l = true := by
      rintro l v rfl
      by_contra hin
      simp [acceptance, hin, hb] at hbusy
    refine ⟨?_, ?_, ?_, ?_, ?_⟩ <;> rw [hseq]
    · exact Nat.zero_le _
    · exact fun hw => absurd rfl hw
    · exact fun hw => absurd rfl hw
    · rw [hlines]; exact legal_microSteps hp hlatch

/-- The list runs on by one: what is legal for the micro-steps ahead is legal for those after the next. -/
theorem legal_drop_succ {ls : PerLine LineState} {ms : List MicroStep} {k : Nat} {m : MicroStep}
    (hm : ms[k]? = some m) (h : legal ls (ms.drop k) = true) :
    legal (lineEffect ls m.action) (ms.drop (k + 1)) = true := by
  obtain ⟨hk, rfl⟩ := List.getElem?_eq_some_iff.1 hm
  rw [List.drop_eq_getElem_cons hk, legal, Bool.and_eq_true] at h
  exact h.2

theorem State.RunsItsCommand.actionStep {v : State} {m : MicroStep} (h : v.RunsItsCommand)
    (hm : v.seq.list[v.seq.k]? = some m) : (v.actionStep m).RunsItsCommand where
  list := h.list
  index := (List.getElem?_eq_some_iff.1 hm).1
  wait _ := ⟨m, Nat.succ_ne_zero _, hm, rfl⟩
  since _ := (v.actionStep_now m).ge
  legal := by rw [State.actionStep_lines]; exact legal_drop_succ hm h.legal

theorem State.RunsItsCommand.endWait {v : State} (h : v.RunsItsCommand) :
    (v.setSeq { v.seq with wait := .none }).RunsItsCommand :=
  ⟨h.list, h.index, fun hw => absurd rfl hw, fun hw => absurd rfl hw, h.legal⟩

/-- The codes of the causes are 1 to 4 (file 60 R200). -/
theorem causeCode_range (c : FaultCause) : causeCode c ≠ 0#4 ∧ (causeCode c).toNat ≤ 4 := by
  cases c <;> decide

/-! Each part of the invariant is kept by every effect of a turn. -/

theorem TurnEffect.faultAgrees {s v u : State} {n : Turn} (h : TurnEffect s v n u) (hv : v.FaultAgrees) :
    u.FaultAgrees := by
  unfold State.FaultAgrees at hv ⊢
  obtain ⟨hf, hc⟩ | ⟨-, hf, hc⟩ | ⟨-, hf, c, hc⟩ := h.fault_cases <;> rw [hf, hc]
  · exact hv
  · decide
  · cases hvf : v.fault with
    | true => simpa [hvf] using hv
    | false => simpa using causeCode_range c

theorem TurnEffect.resultHigh {s v u : State} {n : Turn} (h : TurnEffect s v n u)
    (hv : v.result.extractLsb' 8 24 = 0#24) : u.result.extractLsb' 8 24 = 0#24 := by
  obtain hr | ⟨-, hr⟩ | ⟨l, b, -, -, -, hr⟩ | ⟨-, -, -, -, -, hr⟩ := h.result_cases <;> rw [hr]
  · exact hv
  · rfl
  · cases b <;> rfl
  · exact high_bits_of_byte v.acc

theorem TurnEffect.runsItsCommand {s v u : State} {n : Turn} (h : TurnEffect s v n u)
    (hv : v.seq.busy = true → v.RunsItsCommand) (hbusy : u.seq.busy = true) : u.RunsItsCommand := by
  cases h with
  | idle => exact hv hbusy
  | fault | env => exact (hv hbusy).of_same_seq rfl rfl le_rfl
  | clock dt => exact (hv hbusy).of_same_seq rfl rfl (Nat.le_add_right _ dt)
  | accept w i hr hw hd hb hp => exact acceptance_runsItsCommand hb hp hbusy
  | action m hr hm => exact (hv hbusy).actionStep hm
  | finish => simp [State.finishStep_eq] at hbusy
  | waitOver hr hb hw ho => exact (hv hb).endWait
  | rst b =>
    cases b with
    | true => exact (hv hbusy).of_same_seq rfl rfl le_rfl
    | false => cases hbusy

/-- In reset only the host, the time and ENV go on (file 70 R231). -/
theorem TurnEffect.heldInReset {s v u : State} {n : Turn} (h : TurnEffect s v n u) (hrst : v.rstN = s.rstN)
    (hv : v.rstN = false → v.HeldInReset) (hu : u.rstN = false) : u.HeldInReset := by
  have outside {P : Prop} (hlow : v.rstN = false) (hhigh : v.rstN = true) : P := by simp [hlow] at hhigh
  cases h with
  | idle | clock | env => exact hv hu
  | fault c hr => exact outside hu (hrst.trans hr)
  | accept w i hr => exact outside (by simpa using hu) (hrst.trans hr)
  | action m hr => exact outside (by simpa using hu) (seqReady_iff.1 hr).1
  | finish hr => exact outside (by simpa [State.finishStep_eq] using hu) (seqReady_iff.1 hr).1
  | waitOver hr => exact outside hu (hrst.trans hr)
  | rst b =>
    cases b with
    | true => cases hu
    | false => exact ⟨rfl, rfl, rfl, rfl, rfl, rfl⟩

/-- The edge detector brings `edge.prev` up to `pin(IRQ)` while detection is enabled (file 42 R170). -/
theorem edgeDetect_edgePrev_of_enabled {u : State} (hreset : u.rstN = false → u.HeldInReset)
    (hen : u.edgeEn = true) : u.edgeDetect.edgePrev = u.pin .irq := by
  have hrst : u.rstN = true := by
    by_contra hlow
    obtain ⟨-, -, -, hoff, -⟩ := hreset (by simpa using hlow)
    simp [hoff] at hen
  simp [hrst, hen]

theorem inv_edgeDetect {u : State} (hfault : u.FaultAgrees) (hresult : u.result.extractLsb' 8 24 = 0#24)
    (hseq : u.seq.busy = true → u.RunsItsCommand) (hreset : u.rstN = false → u.HeldInReset) : u.edgeDetect.Inv := by
  refine inv_of_parts ?_ ?_ ?_ ?_ ?_
  · simpa [State.FaultAgrees] using hfault
  · simpa using hresult
  · intro hb
    exact (hseq (by simpa using hb)).of_same_seq u.edgeDetect_seq u.edgeDetect_lines u.edgeDetect_now.ge
  · intro hen
    rw [State.edgeDetect_pin]
    exact edgeDetect_edgePrev_of_enabled hreset (by simpa using hen)
  · intro hlow
    have hlow : u.rstN = false := by simpa using hlow
    simpa [State.HeldInReset, hlow] using hreset hlow

/-- Settles O41: each effect of a turn keeps each part of the invariant but `edge.prev`, which the edge detector brings up
to date at the end of the step. -/
theorem step_keeps_invariant : Obligations.Step_keeps_invariant := by
  intro s t hs h
  obtain ⟨-, v, u, hv, hu, rfl⟩ := step_cases h
  have hvi := hv.inv hs
  have hrst : v.rstN = s.rstN := by obtain ⟨_, _, _, rfl⟩ := hv; rfl
  exact inv_edgeDetect (hu.faultAgrees hvi.faultAgrees) (hu.resultHigh hvi.resultHigh)
    (hu.runsItsCommand hvi.runsItsCommand) (hu.heldInReset hrst hvi.inReset)

/-! ### A wait in progress -/

/-- Settles O39: while a wait is in progress neither a command nor a micro-step can start, so but for a reset SEQ moves
only where `waitEnd` is enabled, and that turn moves nothing else. -/
theorem wait_is_a_lower_bound : Obligations.Wait_is_a_lower_bound := by
  intro s t h hb hw ht
  obtain ⟨-, v, u, ⟨hs, d, ag, rfl⟩, hu, rfl⟩ := step_cases h
  simp only [State.edgeDetect_seq, State.edgeDetect_lines, State.edgeDetect_acc, State.edgeDetect_rstN] at ht ⊢
  generalize hn : s.nextTurn = n at hu
  cases hu with
  | idle | fault | clock | env => exact .inl rfl
  | accept w i hr hww hd hidle => exact absurd (hb.symm.trans hidle) nofun
  | action m hr => exact absurd (seqReady_iff.1 hr).2.2 hw
  | finish hr => exact absurd (seqReady_iff.1 hr).2.2 hw
  | waitOver hr _ _ ho => exact .inr ⟨rfl, rfl, rfl, rfl, of_decide_eq_true ho⟩
  | rst b =>
    cases b with
    | true => exact .inl rfl
    | false => cases ht

/-! ### A step of ENV -/

/-- The edge detector as one update, of PEND and `edge.prev` alone (file 42 R170). -/
theorem State.edgeDetect_eq (s : State) :
    s.edgeDetect = { s with pend := s.edgeDetect.pend, edgePrev := s.edgeDetect.edgePrev } := by
  unfold State.edgeDetect; split <;> rfl

/-- ENV moves no pin but that of the line it drives, and that only while the block does not (file 10 R25, R26). -/
theorem State.setExt_pin_of_out_or_ne {s : State} {l m : Line} {v : Level}
    (h : (s.lines.get m).dir = .out ∨ m ≠ l) : (s.setExt l v).pin m = s.pin m := by
  obtain hout | hne := h
  · rw [State.pin_of_out hout]; exact State.pin_of_out hout
  · simp only [State.pin, State.line, State.setExt_lines, State.setExt_ext, PerLine.get_put_ne _ _ hne]

/-- Settles O46: the turn sets one `ext[L]` and the edge detector writes PEND, which it never clears, and `edge.prev`. -/
theorem env_step_is_isolated : Obligations.Env_step_is_isolated := by
  intro s l v hwf hn
  have hstep : step s = .next (s.popTurn.setExt l v).edgeDetect :=
    step_next_iff.2 ⟨hwf, _, by rw [hn]; rfl, rfl⟩
  refine ⟨(s.popTurn.setExt l v).edgeDetect.pend, (s.popTurn.setExt l v).edgeDetect.edgePrev, ?_, ?_, ?_⟩
  · rw [hstep, State.edgeDetect_eq]
    simp [State.setExt]
  · intro hp
    simp [hp]
  · intro m t ht hm
    rw [hstep] at ht
    cases ht
    rw [State.edgeDetect_pin, State.setExt_pin_of_out_or_ne (by simpa using hm), State.popTurn_pin]

/-! ### A schedule that finishes a command -/

/-- The turns that perform the micro-steps `ms` and then finish: for each its action, its wait's least time, and the
wait's end (file 40 R102, R103, file 10 R30). -/
def finishingTurns (p : Params) : List MicroStep → List Turn
  | [] => [.seq]
  | m :: ms => .seq :: .clock (waitDuration p m.wait) :: .waitEnd :: finishingTurns p ms

theorem finishingTurns_agents (p : Params) (ms : List MicroStep) :
    ∀ x ∈ finishingTurns p ms, x = .seq ∨ x = .waitEnd ∨ ∃ dt, x = .clock dt := by
  induction ms with
  | nil => simp [finishingTurns]
  | cons m ms ih => simpa [finishingTurns] using ih

/-- A command is in progress in a block that gets steps, the micro-steps `ms` are ahead of it, and the agenda is `ts`. -/
structure State.Ahead (s : State) (ms : List MicroStep) (ts : List Turn) : Prop where
  wf : s.params.wf = true
  rstN : s.rstN = true
  busy : s.seq.busy = true
  index : s.seq.k ≤ s.seq.list.length
  ahead : s.seq.list.drop s.seq.k = ms
  agenda : s.agenda = ts

/-- The step of a block whose agenda begins with a turn, when that turn answers. -/
theorem step_of_agenda {s u : State} {x : Turn} {ts : List Turn} (hwf : s.params.wf = true)
    (hag : s.agenda = x :: ts) (hu : performTurn x { s with agenda := ts } = .next u) : step s = .next u.edgeDetect := by
  refine step_next_iff.2 ⟨hwf, u, ?_, rfl⟩
  simpa [State.nextTurn, State.popTurn, hag] using hu

/-- SEQ's turn performs the micro-step ahead and begins its wait. -/
theorem State.Ahead.step_action {s : State} {m : MicroStep} {ms : List MicroStep} {ts : List Turn}
    (h : s.Ahead (m :: ms) (.seq :: ts)) (hw : s.seq.wait = .none) :
    ∃ u, step s = .next u ∧ u.Ahead ms ts ∧ u.params = s.params ∧ u.seq.wait = m.wait ∧ u.seq.since = u.now := by
  have hm : s.seq.list[s.seq.k]? = some m := by
    rw [← List.head?_drop, h.ahead]; rfl
  have hturn : performTurn .seq { s with agenda := ts } = .next (State.actionStep { s with agenda := ts } m) := by
    simp [performTurn, State.seqTurn, seqReady_iff.2, h.rstN, h.busy, hw, hm]
  refine ⟨_, step_of_agenda h.wf h.agenda hturn, ?_, by simp, by simp, by simp⟩
  exact {
    wf := by simpa using h.wf
    rstN := by simpa using h.rstN
    busy := by simpa using h.busy
    index := by simpa using (List.getElem?_eq_some_iff.1 hm).1
    ahead := by simp [← List.tail_drop, h.ahead]
    agenda := by simp }

/-- Where the least time of the wait has passed, `waitEnd` leaves SEQ without a wait, also where there was none. -/
theorem endWait_of_waitOver {s : State} (hr : s.rstN = true) (hb : s.seq.busy = true) (ho : s.waitOver = true) :
    s.endWait = s.setSeq { s.seq with wait := .none } := by
  cases hw : s.seq.wait with
  | none =>
    have hq : ({ s.seq with wait := .none } : Sequencer) = s.seq := by rw [← hw]
    rw [hq]
    simp [State.endWait, State.setSeq, hw]
  | settle | rst => simp [State.endWait, hr, hb, ho, hw]

/-- A turn of CLOCK as long as the wait lasts, and then the wait's end. -/
theorem State.Ahead.steps_wait {s : State} {ms : List MicroStep} {ts : List Turn} {dt : Nat}
    (h : s.Ahead ms (.clock dt :: .waitEnd :: ts)) (hdt : s.seq.since + waitDuration s.params s.seq.wait ≤ s.now + dt) :
    ∃ u, runSteps 2 s = .next u ∧ u.Ahead ms ts ∧ u.params = s.params ∧ u.seq.wait = .none := by
  have hclock := step_of_agenda h.wf h.agenda (u := State.clockTurn { s with agenda := .waitEnd :: ts } dt) rfl
  have hend := endWait_of_waitOver
    (s := { (State.clockTurn { s with agenda := .waitEnd :: ts } dt).edgeDetect with agenda := ts })
    (by simpa using h.rstN) (by simpa using h.busy) (decide_eq_true (by simpa using hdt))
  have hwaitEnd := step_of_agenda (x := .waitEnd) (by simpa using h.wf) (State.edgeDetect_agenda _)
    (congrArg Host.Outcome.next hend)
  refine ⟨_, (runSteps_succ 1 hclock).trans (runSteps_succ 0 hwaitEnd), ?_, by simp, by simp⟩
  exact {
    wf := by simpa using h.wf
    rstN := by simpa using h.rstN
    busy := by simpa using h.busy
    index := by simpa using h.index
    ahead := by simpa using h.ahead
    agenda := by simp }

/-- After the last micro-step SEQ's turn finishes the command. -/
theorem State.Ahead.step_finish {s : State} (h : s.Ahead [] [.seq]) (hw : s.seq.wait = .none) :
    ∃ t, step s = .next t ∧ t.seq.busy = false := by
  have hk : s.seq.k = s.seq.list.length := le_antisymm h.index (List.drop_eq_nil_iff.1 h.ahead)
  have hturn : performTurn .seq { s with agenda := [] } = .next (State.finishStep { s with agenda := [] }) := by
    simp [performTurn, State.seqTurn, seqReady_iff.2, h.rstN, h.busy, hw, hk]
  exact ⟨_, step_of_agenda h.wf h.agenda hturn, by simp [State.finishStep_eq]⟩

theorem runSteps_add {m n : Nat} {s u : State} (h : runSteps m s = .next u) : runSteps (m + n) s = runSteps n u := by
  induction m generalizing s with
  | zero => cases h; rw [Nat.zero_add]
  | succ m ih =>
    obtain ⟨v, hv, hrun⟩ := runSteps_next h
    rw [Nat.add_right_comm, runSteps_succ _ hv, ih hrun]

/-- With no wait in progress the finishing turns finish the command: by induction on the micro-steps ahead. -/
theorem State.Ahead.runSteps_finishingTurns {p : Params} {ms : List MicroStep} {s : State} (hp : s.params = p)
    (h : s.Ahead ms (finishingTurns p ms)) (hw : s.seq.wait = .none) :
    ∃ t, runSteps (finishingTurns p ms).length s = .next t ∧ t.seq.busy = false := by
  induction ms generalizing s with
  | nil =>
    obtain ⟨t, hstep, ht⟩ := h.step_finish hw
    exact ⟨t, runSteps_succ 0 hstep, ht⟩
  | cons m ms ih =>
    obtain ⟨u, hstep, hu, hup, huw, husince⟩ := h.step_action hw
    obtain ⟨v, hrun, hv, hvp, hvw⟩ := hu.steps_wait (by rw [hup, hp, huw, husince])
    obtain ⟨t, hfin, ht⟩ := ih (hvp.trans (hup.trans hp)) hv hvw
    refine ⟨t, ?_, ht⟩
    rw [← hfin, ← runSteps_add hrun, finishingTurns, List.length_cons, List.length_cons, List.length_cons,
      runSteps_succ _ hstep, Nat.add_comm 2]

/-- Settles O56: let the wait in progress, if there is one, last and end; then every micro-step ahead is performed in its
turn, and SEQ finishes. -/
theorem every_command_can_finish : Obligations.Every_command_can_finish := by
  intro s hs hwf hrst hbusy
  obtain ⟨dt, hdt⟩ : ∃ dt, s.seq.since + waitDuration s.params s.seq.wait ≤ s.now + dt := ⟨_, Nat.le_add_left _ _⟩
  have hahead : State.Ahead
      { s with agenda := .clock dt :: .waitEnd :: finishingTurns s.params (s.seq.list.drop s.seq.k) } _ _ :=
    ⟨hwf, hrst, hbusy, hs.seqIndex hbusy, rfl, rfl⟩
  obtain ⟨u, hrun, hu, hup, huw⟩ := hahead.steps_wait hdt
  obtain ⟨t, hfin, ht⟩ := hu.runSteps_finishingTurns hup huw
  refine ⟨.clock dt :: .waitEnd :: finishingTurns s.params (s.seq.list.drop s.seq.k), t, ?_, ?_, ht⟩
  · simpa using finishingTurns_agents s.params (s.seq.list.drop s.seq.k)
  · rw [← hfin, ← runSteps_add hrun, Nat.add_comm 2]; rfl

/-! ### STATUS, LINES and reads of the window -/

/-- Settles O23: STATUS is the concatenation of its fields, so each bit is found in its field. -/
theorem status_layout : Obligations.Status_layout := by
  intro s
  refine ⟨high_bits_of_byte _, ?_, ?_, ?_, ?_, statusWord_busy s, rfl⟩
  · apply BitVec.eq_of_getLsbD_eq
    intro i hi
    simp only [State.statusWord, BitVec.zeroExtend, BitVec.getLsbD_extractLsb', BitVec.getLsbD_setWidth,
      BitVec.getLsbD_append]
    interval_cases i <;> simp
  all_goals
    simp only [State.statusWord, BitVec.zeroExtend, BitVec.getLsbD_setWidth, BitVec.getLsbD_append]
    simp [State.irqOut]

theorem lineBits_dir (x : LineState) : (lineBits x).getLsbD 0 = (x.dir == .out) := by
  rw [lineBits, BitVec.getLsbD_append]; simp

theorem lineBits_lat (x : LineState) : (lineBits x).getLsbD 1 = x.lat := by
  rw [lineBits, BitVec.getLsbD_append]; simp

/-- The bits of a line lie in LINES from bit `2L` on (file 10 R35). -/
theorem linesWord_lineBits (s : State) (l : Line) {j : Nat} (hj : j < 2) :
    s.linesWord.getLsbD (2 * l.index.toNat + j) = (lineBits (s.lines.get l)).getLsbD j := by
  simp only [State.linesWord, BitVec.zeroExtend, BitVec.getLsbD_setWidth, BitVec.getLsbD_append]
  interval_cases j <;> cases l <;> simp [Line.index, PerLine.get]

/-- Settles O24: the two bits of each line, at its place in LINES. -/
theorem lines_layout : Obligations.Lines_layout := fun s =>
  ⟨high_bits_of_byte _, fun l => ⟨(linesWord_lineBits s l (by decide)).trans (lineBits_dir _),
    (linesWord_lineBits s l (by decide)).trans (lineBits_lat _)⟩⟩

/-- An admitted read hands the host the register and does nothing else (file 20 R62, R63). -/
theorem access_read_admitted {s : State} {off : Nat} (hr : s.rstN = true) (hoff : off < 16) (halign : off % 4 = 0) :
    access (.read (s.params.base + off) 4) s = .next (s.setData (s.regWord off)) := by
  simp [access, memRead, inWindow, admitted, hr, hoff, halign]

/-- Settles O25: the four registers are the four aligned offsets of the window. -/
theorem reads_return_registers : Obligations.Reads_return_registers := fun _ hr =>
  ⟨access_read_admitted hr (by decide) rfl, access_read_admitted hr (by decide) rfl,
    access_read_admitted hr (by decide) rfl, access_read_admitted hr (by decide) rfl⟩

/-! ### Reset -/

theorem statusWord_eq_zero {s : State} (hc : s.fcause = 0#4) (hf : s.fault = false) (he : s.edgeEn = false)
    (hp : s.pend = false) (hb : s.seq.busy = false) : s.statusWord = 0#32 := by
  rw [State.statusWord, hc, hf, he, hp, hb]; rfl

theorem linesWord_of_linesReset {s : State} (h : s.lines = linesReset) : s.linesWord = 0#32 := by
  rw [State.linesWord, h]; rfl

theorem linesReset_get (l : Line) : linesReset.get l = ⟨.inp, false⟩ := by
  cases l <;> rfl

/-- The edge detector is held off in reset (file 70 R231). -/
theorem edgeDetect_of_rstN_low {s : State} (h : s.rstN = false) : s.edgeDetect = s := by
  simp [State.edgeDetect, h]

/-- Settles O33: the turn gives every element its value of R39, and the edge detector is then held off. -/
theorem block_reset_values : Obligations.Block_reset_values := by
  intro s hwf hn
  have hstep : step s = .next (s.popTurn.rstTurn false) :=
    step_next_iff.2 ⟨hwf, _, by rw [hn]; rfl, (edgeDetect_of_rstN_low rfl).symm⟩
  exact ⟨_, hstep, linesReset_get, s.popTurn_ext, rfl, rfl, rfl, rfl, rfl, rfl,
    statusWord_eq_zero rfl rfl rfl rfl rfl, linesWord_of_linesReset rfl, rfl, rfl⟩

theorem inv_resetOf (p : Params) : (State.resetOf p).Inv := by
  refine inv_of_parts ⟨iff_of_true rfl rfl, Nat.zero_le 4⟩ (high_bits_of_byte 0#8) ?_ ?_ ?_ <;> exact nofun

/-- Settles O34: the fields of `State.resetOf` are the values of R39, and the invariant holds of them, no command being
in progress and detection being off. -/
theorem reset_state : Obligations.Reset_state := fun p =>
  ⟨linesReset_get, rfl, rfl, statusWord_eq_zero rfl rfl rfl rfl rfl, linesWord_of_linesReset rfl, rfl, rfl,
    inv_resetOf p⟩

end Sys2Proof.Machine
end

section
/-! PROOF. The register window (file 20): bus errors, the layout of its bytes, what a step in which HOST reads it leaves
unchanged, and what a step in which HOST writes a command word to CMD issues. -/

namespace Sys2Proof.Machine

/-! ### Accesses that are refused (file 20 R61, R64) -/

theorem inWindow_base_add {p : Params} {off : Nat} (h : off < 16) : inWindow p (p.base + off) = true := by
  simp [inWindow, h]

theorem admitted_base_add (p : Params) (off n : Nat) : admitted p (p.base + off) n = true ↔ n = 4 ∧ off % 4 = 0 := by
  simp [admitted]

/-- A read that is not an aligned 32-bit one hands the host 0 and records BUS (file 20 R61). -/
theorem access_read_bus {s : State} {off n : Nat} (hr : s.rstN = true) (hoff : off < 16)
    (hbad : ¬(n = 4 ∧ off % 4 = 0)) : access (.read (s.params.base + off) n) s = .next ((s.raise .bus).setData 0#32) := by
  rw [← admitted_base_add s.params] at hbad
  rw [access, memRead, if_pos (inWindow_base_add hoff), if_pos hr, if_neg hbad]

/-- CMD as a whole is all that the window takes a write of (file 20 R61, R64). -/
theorem access_write_bus {s : State} {off n : Nat} (v : Word) (hr : s.rstN = true) (hoff : off < 16)
    (hbad : ¬(n = 4 ∧ off = 0)) : access (.write (s.params.base + off) n v) s = .next (s.raise .bus) := by
  have hcmd : ¬(admitted s.params (s.params.base + off) n && s.params.base + off == s.params.base) = true := by
    rw [Bool.and_eq_true, admitted_base_add, beq_iff_eq]
    omega
  rw [access, memWrite, if_pos (inWindow_base_add hoff), if_pos hr, if_neg hcmd]

/-- Settles O19: the access lies in the window and is not an aligned 32-bit one, so neither is it a write of CMD. -/
theorem bus_error_on_bad_access : Obligations.Bus_error_on_bad_access := by
  intro s off n v hr hoff hbad
  exact ⟨access_read_bus hr hoff (by omega), access_write_bus v hr hoff (by omega)⟩

/-- Settles O20: the write is aligned and 32 bits wide, but of a register other than CMD. -/
theorem bus_error_on_readonly_write : Obligations.Bus_error_on_readonly_write := by
  intro s off v hr hoff
  exact access_write_bus v hr (by omega) (by omega)

/-! ### The byte lanes (file 20 R65) -/

/-- The byte at an offset is taken from the register that holds the offset. -/
theorem windowByte_four_mul_add (s : State) (r : Nat) {i : Nat} (hi : i < 4) :
    s.windowByte (4 * r + i) = (s.regWord (4 * r)).extractLsb' (8 * i) 8 := by
  have hmod : (4 * r + i) % 4 = i := by omega
  rw [State.windowByte, hmod, Nat.add_sub_cancel]

/-- Settles O27: byte `i` of a register is its eight bits from `8 * i` on. -/
theorem window_bytes_little_endian : Obligations.Window_bytes_little_endian := by
  intro s r i _ hi b hb
  rw [windowByte_four_mul_add s r hi, BitVec.getLsbD_extractLsb']
  simp [hb]

/-! ### A turn of HOST -/

/-- The host's next access is the same before and after its operation is taken: the operation leaves the engine. -/
theorem State.opAccess_popHostOp (s : State) (op : HostOp) : s.popHostOp.opAccess op = s.opAccess op := by
  have hengine : s.popHostOp.host.engine = s.host.engine := by
    unfold State.popHostOp; split <;> rfl
  unfold State.opAccess
  rw [hengine, State.popHostOp_params]

theorem hostTurn_eq (s : State) :
    hostTurn s = onNext (fun t => t.afterOp s.nextHostOp) (accessIfAny s.nextAccess s.popHostOp) := by
  rw [hostTurn, hostOp, State.opAccess_popHostOp, State.nextAccess]

theorem step_of_host {s : State} (hwf : s.params.wf = true) (hn : s.nextTurn = .host) :
    step s = endOfStep (hostTurn s.popTurn) := by
  rw [step, if_pos hwf, runTurn, hn, performTurn]

/-- Where the host's operation is an access, the step is that access and the edge detector. -/
theorem step_of_access {s : State} {x : Access} (hwf : s.params.wf = true) (hn : s.nextTurn = .host)
    (hop : s.popTurn.nextHostOp = .access x) : step s = endOfStep (access x s.popTurn.popHostOp) := by
  have hsoftware (o : Outcome) : onNext (fun t => t.afterOp (.access x)) o = o := by cases o <;> rfl
  rw [step_of_host hwf hn, hostTurn_eq, State.nextAccess, hop, hsoftware, State.opAccess, accessIfAny_some]

/-- Taking the turn and the host's operation touches the host and the schedule alone, and the agenda only by the turn. -/
theorem popTurn_popHostOp_eq (s : State) :
    ∃ h d, s.popTurn.popHostOp = { s with host := h, agenda := s.popTurn.agenda, draws := d } := by
  unfold State.popTurn State.popHostOp
  cases s.agenda <;> dsimp only <;> cases s.host.program <;> exact ⟨_, _, rfl⟩

/-! ### A step that reads (file 20 R63) -/

/-- With `pin(IRQ)` as it was when `edge.prev` was taken, the edge detector does nothing (file 42 R170). -/
theorem edgeDetect_of_edgePrev {s : State} (h : s.edgeEn = true → s.edgePrev = s.pin .irq) : s.edgeDetect = s := by
  unfold State.edgeDetect
  split
  · rename_i hon
    rw [← h (Bool.and_eq_true_iff.1 hon).2, Bool.and_not_self, Bool.or_false]
  · rfl

/-- Settles O26: the access hands the host the register, the host's software does no more, and by the invariant the edge
detector finds `pin(IRQ)` as it left it. -/
theorem read_step_has_no_side_effect : Obligations.Read_step_has_no_side_effect := by
  intro s off hs hwf hr hn hoff halign hop
  obtain ⟨h, d, hp⟩ := popTurn_popHostOp_eq s
  have hread := access_read_admitted (s := { s with host := h, agenda := s.popTurn.agenda, draws := d }) hr hoff halign
  have hquiet := edgeDetect_of_edgePrev
    (s := { s with host := { h with data := s.regWord off }, agenda := s.popTurn.agenda, draws := d }) hs.edgePrev
  refine ⟨{ h with data := s.regWord off }, d, ?_, rfl⟩
  calc step s = endOfStep (access (.read (s.params.base + off) 4) s.popTurn.popHostOp) := step_of_access hwf hn hop
    _ = endOfStep (.next _) := by rw [hp]; exact congrArg endOfStep hread
    _ = .next _ := congrArg Host.Outcome.next hquiet

/-! ### A step that issues a command (file 20 R62) -/

theorem issueWord_of_decode {w : Word} {i : Instr} (h : decode w = .ok i) : issueWord w = exec i := by
  funext s
  rw [issueWord, h]

/-- But for the decode task, an operation that writes is the write itself (file 30 R87). -/
theorem opAccess_eq_write {s : State} {op : HostOp} {a n : Nat} {w : Word}
    (h : s.opAccess op = some (.write a n w)) (hop : op ≠ .decodeTask) : op = .access (.write a n w) := by
  cases op with
  | access x => exact congrArg HostOp.access (Option.some.inj h)
  | waitIdle => cases h
  | decodeTask => exact absurd rfl hop

/-- What the host's software does after a command is issued could as well come before, since no command sees the host. -/
theorem onNext_afterOp_exec (op : HostOp) (i : Instr) (s : State) :
    ∃ h, onNext (fun t => t.afterOp op) (exec i s) = exec i { s with host := h } := by
  obtain ⟨t, ht⟩ := exec_next i s
  obtain ⟨h, hafter⟩ := afterOp_eq op t
  refine ⟨h, ?_⟩
  have hcomm := exec_setHost i s h
  rw [ht] at hcomm ⊢
  exact (congrArg Host.Outcome.next hafter).trans hcomm.symm

/-- The access by which HOST writes a command's word to CMD executes the command. -/
theorem access_write_cmd_popped {s : State} {w : Word} {i : Instr} (hr : s.rstN = true) (hd : decode w = .ok i) :
    access (.write s.params.base 4 w) s.popTurn.popHostOp = exec i s.popTurn.popHostOp := by
  have hwrite := access_write_cmd s.popTurn.popHostOp w
  rwa [State.popHostOp_params, State.popTurn_params, State.popHostOp_rstN, State.popTurn_rstN, if_pos hr,
    issueWord_of_decode hd] at hwrite

/-- The write is an operation of the host's program. -/
theorem step_of_program_write {s : State} {w : Word} {i : Instr} (hwf : s.params.wf = true) (hr : s.rstN = true)
    (hn : s.nextTurn = .host) (hop : s.popTurn.nextHostOp = .access (.write s.params.base 4 w))
    (hd : decode w = .ok i) : step s = endOfStep (exec i s.popTurn.popHostOp) := by
  rw [step_of_access hwf hn hop, access_write_cmd_popped hr hd]

/-- The write is an operation of the host's program or one of the decode task's, after which the host's state moves on. -/
theorem step_of_hostWrites {s : State} {w : Word} {i : Instr} (hwf : s.params.wf = true) (hr : s.rstN = true)
    (hw : s.hostWrites w) (hd : decode w = .ok i) :
    ∃ h, step s = endOfStep (exec i { s.popTurn.popHostOp with host := h }) := by
  obtain ⟨hn, hx⟩ := hw
  obtain ⟨h, hexec⟩ := onNext_afterOp_exec s.popTurn.nextHostOp i s.popTurn.popHostOp
  refine ⟨h, ?_⟩
  rw [step_of_host hwf hn, hostTurn_eq, hx, accessIfAny_some, access_write_cmd_popped hr hd, hexec]

/-- The write that `withFetchWord` places is what the next step takes, and taking it leaves the state as it was but for
`rst_n` (file 20 R62; log entry 13). -/
theorem step_withFetchWord {s : State} {nbits w : Nat} {i : Instr} (hwf : s.params.wf = true)
    (hd : decodeTableWord nbits w = some i) :
    step (s.withFetchWord nbits w) = endOfStep (exec i { s with rstN := true }) := by
  have hdecode : decode (BitVec.ofNat 32 (w % 2 ^ nbits)) = .ok i := by
    unfold decodeTableWord Except.toOption at hd
    split at hd
    · rename_i hok
      rw [hok, Option.some.inj hd]
    · cases hd
  exact step_of_program_write (s := s.withFetchWord nbits w) hwf rfl rfl rfl hdecode

/-- Settles O7: a write by the host's program is the access alone; where it is the decode task's, the software that
follows could as well come before the command. -/
theorem step_issues_decoded_command : Obligations.Step_issues_decoded_command := by
  refine ⟨fun s w i hwf hr hw hd => ?_, fun s nbits w i hwf hd => step_withFetchWord hwf hd⟩
  by_cases hop : s.popTurn.nextHostOp = .decodeTask
  · obtain ⟨h, hstep⟩ := step_of_hostWrites hwf hr hw hd
    exact ⟨h, hstep, fun hne => absurd hop hne⟩
  · obtain ⟨hn, hx⟩ := hw
    exact ⟨_, step_of_program_write hwf hr hn (opAccess_eq_write hx hop) hd, fun _ => rfl⟩

end Sys2Proof.Machine
end

section
/-! PROOF. The command word (file 30): decode and encode are each other's inverse, the opcode map admits the same words,
the 38 valid words, the assembler's spelling, and what HOST's write of an invalid word and its poll of STATUS do. -/

namespace Sys2Proof

/-! ### Decode and encode (R81, R83) -/

/-- Each command's fields pass the checks of its own row. -/
@[simp] theorem decode_encode (i : Instr) : decode (encode i) = .ok i := by
  cases i <;> simp [encode, decode_enc, decodeFields, admitWhen]

/-- Settles O2: a decoded word is its command's, and a command's word decodes to it. -/
theorem decode_iff_encode : Obligations.Decode_iff_encode :=
  fun _ i => ⟨eq_encode_of_decode, fun h => h ▸ decode_encode i⟩

theorem encode_injective : Function.Injective encode := by
  intro i j h
  simpa using congrArg decode h

/-- Settles O1: each of the ten valid words is its command's; in the three others the reserved bits, then the fields,
evaluate to the rejection. -/
theorem decode_words : Obligations.Decode_words :=
  ⟨decode_encode .nop, decode_encode (.cfgOut .rst true), decode_encode (.cfgIn .irq),
    decode_encode (.set .clk false), decode_encode (.read .rst), decode_encode (.latch .irq true),
    decode_encode .pullFrame, decode_encode .resetPulse, decode_encode .take, decode_encode (.edgeEn true),
    rfl, rfl, rfl⟩

/-! ### The fields of an encoded word (R80, R81) -/

theorem enc_eq_or (op : BitVec 4) (ln : BitVec 2) (lv : Level) :
    enc op ln lv = (op.zeroExtend 32 <<< 12) ||| (ln.zeroExtend 32 <<< 8) ||| (BitVec.ofBool lv).zeroExtend 32 := by
  revert op ln lv; decide

/-- Settles O5: the closed form, and the fields read back one by one. -/
theorem enc_is_fields : Obligations.Enc_is_fields := fun op ln lv =>
  ⟨enc_eq_or op ln lv, fieldOp_enc op ln lv, fieldLn_enc op ln lv, fieldLv_enc op ln lv, reservedZero_enc op ln lv⟩

/-! ### The opcode map (R82) -/

/-- The opcode map: the row of each command, whatever its operands. -/
def opcodeMap : List (Word × Word) :=
  [Instr.nop, .cfgOut .data false, .cfgIn .data, .set .data false, .read .data, .latch .data false, .pullFrame,
    .resetPulse, .take, .edgeEn false].map fun i => (rowMatch i, rowMask i)

/-- The rows of the map that a word matches. -/
def matchingRows (w : Word) : List (Word × Word) := opcodeMap.filter fun r => w &&& r.2 == r.1

/-- Of the words with reserved bits 0, those that decode match one row and the others none: all 128 are tried. -/
theorem length_matchingRows_enc (op : BitVec 4) (ln : BitVec 2) (lv : Level) :
    (matchingRows (enc op ln lv)).length = (decodeFields op ln lv).isOk.toNat := by
  revert op ln lv; decide

/-- A mask that is 1 on the reserved bits keeps them. -/
theorem reservedZero_and {m : Word} (w : Word) (hh : m.extractLsb' 16 16 = BitVec.allOnes 16)
    (hm : m.extractLsb' 10 2 = BitVec.allOnes 2) (hl : m.extractLsb' 1 7 = BitVec.allOnes 7) :
    reservedZero (w &&& m) = reservedZero w := by
  simp only [reservedZero, BitVec.extractLsb'_and, hh, hm, hl, BitVec.and_allOnes]

theorem reservedZero_and_rowMask (w : Word) (i : Instr) : reservedZero (w &&& rowMask i) = reservedZero w := by
  cases i <;> rw [rowMask] <;> exact reservedZero_and w rfl rfl rfl

theorem reservedZero_rowMatch (i : Instr) : reservedZero (rowMatch i) = true := by
  cases i <;> rw [rowMatch] <;> decide

/-- Every row masks in the reserved bits and asks for 0 there. -/
theorem reservedZero_of_matchingRow {w : Word} {r : Word × Word} (hr : r ∈ matchingRows w) :
    reservedZero w = true := by
  obtain ⟨hmap, hmatch⟩ := List.mem_filter.1 hr
  obtain ⟨i, -, rfl⟩ := List.mem_map.1 hmap
  rw [← reservedZero_and_rowMask w i, beq_iff_eq.1 hmatch, reservedZero_rowMatch]

theorem exists_eq_ok_iff {ε α : Type} (x : Except ε α) : (∃ a, x = .ok a) ↔ x.isOk = true := by
  cases x <;> simp [Except.isOk, Except.toBool]

/-- Settles O3: a word with a reserved bit set matches no row and does not decode; every other word is the encoding of
its fields. -/
theorem decode_agrees_with_opcode_map : Obligations.Decode_agrees_with_opcode_map := by
  intro w
  change (∃ i, decode w = .ok i) ↔ (matchingRows w).length = 1
  by_cases hres : reservedZero w = true
  · rw [eq_enc_of_reservedZero hres, decode_enc, length_matchingRows_enc, exists_eq_ok_iff, Bool.toNat_eq_one]
  · have hnone : matchingRows w = [] :=
      List.eq_nil_iff_forall_not_mem.2 fun _ hr => hres (reservedZero_of_matchingRow hr)
    simp [decode, hres, hnone]

/-! ### The valid words (R88) -/

def Line.all : List Line := [.data, .clk, .irq, .rst]

theorem Line.mem_all (l : Line) : l ∈ Line.all := by
  cases l <;> decide

/-- The commands that take a line and a level, with each of their operands. -/
def withLineAndLevel (c : Line → Level → Instr) : List Instr := Line.all.flatMap fun l => [c l false, c l true]

theorem mem_withLineAndLevel (c : Line → Level → Instr) (l : Line) (v : Level) : c l v ∈ withLineAndLevel c :=
  List.mem_flatMap.2 ⟨l, Line.mem_all l, by cases v <;> simp⟩

/-- Every command with each of its operands, in the order of the opcodes. -/
def Instr.all : List Instr :=
  [.nop] ++ withLineAndLevel .cfgOut ++ Line.all.map .cfgIn ++ withLineAndLevel .set ++ Line.all.map .read ++
    withLineAndLevel .latch ++ [.pullFrame, .resetPulse, .take, .edgeEn false, .edgeEn true]

theorem Instr.mem_all (i : Instr) : i ∈ Instr.all := by
  cases i with
  | edgeEn v => cases v <;> simp [Instr.all]
  | _ => simp [Instr.all, Line.mem_all, mem_withLineAndLevel]

/-- Settles O4: the valid words are the words of the 38 commands, one for each since no two commands share a word. -/
theorem valid_words_counted : Obligations.Valid_words_counted := by
  refine ⟨Instr.all.map encode, List.Nodup.map encode_injective (by decide), rfl, fun w => ?_, by decide⟩
  simp only [List.mem_map, Instr.mem_all, true_and, decode_iff_encode w, eq_comm]

end Sys2Proof

namespace Sys2Proof.Machine

/-! ### The assembler (R86) -/

@[simp] theorem lineOfToken_lineToken (l : Line) : lineOfToken (lineToken l) = some l := by
  cases l <;> rfl

@[simp] theorem levelOfToken_levelToken (v : Level) : levelOfToken (levelToken v) = some v := by
  cases v <;> rfl

/-- Each mnemonic names its own command, and its operands read back. -/
theorem assemble_tokens (i : Instr) : assemble (tokens i) = some i := by
  cases i <;> simp [tokens, assemble, bareCommand, unaryCommand, binaryCommand]

/-- Settles O6: mnemonics and operands read back, and the numbers are the lines' other names. -/
theorem assembler_reads_spelling : Obligations.Assembler_reads_spelling :=
  ⟨assemble_tokens, lineOfToken_lineToken, rfl, rfl, rfl, rfl⟩

/-! ### A write of an invalid word (R84) -/

/-- A word that is no command's is not issued: BUSY comes before ILLEGAL (file 60 R204). -/
theorem issueWord_of_ne_encode {w : Word} (h : ∀ i, w ≠ encode i) (s : State) :
    issueWord w s = .next (s.raise (if s.seq.busy then .busy else .illegal)) := by
  unfold issueWord
  cases hd : decode w with
  | ok i => exact absurd (eq_encode_of_decode hd) (h i)
  | error e => rfl

/-- Settles O18: the word is not issued, and the fault recorded is BUSY or ILLEGAL by whether the block is busy. -/
theorem illegal_word_has_no_effect : Obligations.Illegal_word_has_no_effect := by
  intro s w hr hw
  rw [access_write_cmd, if_pos hr, issueWord_of_ne_encode hw]
  cases hb : s.seq.busy <;> rfl

/-! ### The poll of `wait_idle` (R87) -/

/-- With `rst_n` released `wait_idle` hands the host STATUS, and its bit 0 decides whether the loop goes on. -/
theorem hostOp_waitIdle {s : State} (hr : s.rstN = true) :
    hostOp .waitIdle s = .next (s.setData s.statusWord).afterStatusRead := by
  rw [hostOp, State.opAccess, accessIfAny_some, access_statusRead, if_pos hr, onNext, State.afterOp]

/-- Settles O28: bit 0 of the word read is BUSY. -/
theorem waitIdle_polls_busy : Obligations.WaitIdle_polls_busy := by
  intro s hr
  have hbit : (s.setData s.statusWord).host.data.getLsbD 0 = s.seq.busy := statusWord_busy s
  rw [hostOp_waitIdle hr, State.afterStatusRead, hbit]
  exact ⟨fun hb => by rw [if_pos hb]; rfl, fun hb => by rw [hb]; rfl⟩

end Sys2Proof.Machine
end

section
/-! PROOF. The line driver (file 40): what issuing each of its commands does, what a turn of SEQ does, and what an
accepted command has made of the lines, RESULT and ACC while it is in progress and at its finish. -/

namespace Sys2Proof.Machine

/-! ### Issuing while idle (R106 to R112) -/

theorem levelWord_eq (v : Level) : levelWord v = if v then 1#32 else 0#32 := by
  cases v <;> rfl

theorem acceptance_latch_of_out {s : State} {l : Line} (v : Level) (h : (s.lines.get l).dir = .out) :
    acceptance (.latch l v) s = s.start (.latch l v) [settled (.drive l v)] :=
  if_pos (State.isOut_iff.2 h)

theorem acceptance_latch_of_inp {s : State} {l : Line} (v : Level) (h : (s.lines.get l).dir = .inp) :
    acceptance (.latch l v) s = s.setLine l ⟨.inp, v⟩ := by
  have hin : ¬ s.isOut l = true := by simp [State.isOut_iff, h]
  simp only [acceptance, if_neg hin, State.setLatch, State.line, h]

/-- The latch of an IN line is not seen on its pin (file 10 R25). -/
theorem State.setLine_inp_pin {s : State} {l : Line} (v : Level) (h : (s.lines.get l).dir = .inp) (m : Line) :
    (s.setLine l ⟨.inp, v⟩).pin m = s.pin m := by
  by_cases hml : m = l
  · subst hml
    rw [State.pin_of_inp h]
    exact State.pin_of_inp (by simp)
  · simp [State.pin, State.line, PerLine.get_put_ne _ _ hml]

/-- Settles O8: NOP has no precondition, and accepting it does nothing. -/
theorem nop_changes_nothing : Obligations.Nop_changes_nothing := fun _ hb => exec_accept hb rfl

/-- Settles O9: neither command has a precondition, and accepting it starts its one micro-step. -/
theorem cfg_commands_start : Obligations.Cfg_commands_start := fun _ _ _ hb =>
  ⟨exec_accept hb rfl, exec_accept hb rfl⟩

/-- Settles O10: SET's precondition holds, and LATCH takes its OUT branch. -/
theorem set_and_latch_start_on_output : Obligations.Set_and_latch_start_on_output := by
  intro s l v hb hd
  refine ⟨exec_accept hb (State.isOut_iff.2 hd), ?_⟩
  rw [exec_accept hb rfl, acceptance_latch_of_out v hd]
  rfl

/-- Settles O11: LATCH takes its IN branch, and an IN line's pin does not show its latch. -/
theorem latch_on_input_writes_latch : Obligations.Latch_on_input_writes_latch := by
  intro s l v hb hd
  refine ⟨s.setLine l ⟨.inp, v⟩, ?_, rfl, hb, State.setLine_inp_pin v hd⟩
  rw [exec_accept hb rfl, acceptance_latch_of_inp v hd]

/-- Settles O12: READ's precondition holds, and the pin of an IN line is what the environment presents. -/
theorem read_samples_input : Obligations.Read_samples_input := by
  intro s l hb hd
  rw [exec_accept (i := .read l) hb (State.isIn_iff.2 hd), acceptance, levelWord_eq, State.pin_of_inp hd]
  rfl

/-- Settles O17: the preconditions are those of `directionOk`; where it fails the issue raises the fault alone, and
where it holds the command is accepted, PULL_FRAME with a list that is legal from any lines. -/
theorem direction_preconditions : Obligations.Direction_preconditions := by
  intro s i hb holds
  have hholds : holds = directionOk i s := by cases i <;> rfl
  rw [hholds]
  refine ⟨fun hd => exec_direction hb hd, fun hd => ?_⟩
  refine ⟨acceptance i s, exec_accept hb hd, acceptance_fault i s, acceptance_fcause i s, ?_⟩
  rintro rfl
  exact legal_pullList s.lines

/-! ### A turn of SEQ (R102 to R104) -/

theorem seqTurn_of_action {s : State} {m : MicroStep} (hr : s.seqReady = true) (hm : s.seq.list[s.seq.k]? = some m) :
    s.seqTurn = s.actionStep m := by
  simp [State.seqTurn, hr, hm]

theorem seqTurn_of_finish {s : State} (hr : s.seqReady = true) (hk : s.seq.k = s.seq.list.length) :
    s.seqTurn = s.finishStep := by
  simp [State.seqTurn, hr, hk]

/-- A sample sets its own bit where the level is 1, and touches no other (file 41 R135). -/
theorem getLsbD_sampleInto (acc : Byte) (b i : Fin 8) (v : Level) :
    (sampleInto acc b v).getLsbD i = (acc.getLsbD i || (decide (i = b) && v)) := by
  have hone : ∀ b i : Fin 8, (1#8 <<< b.val).getLsbD i = decide (i = b) := by decide
  cases v with
  | false => simp [sampleInto]
  | true => simp only [sampleInto, if_true, BitVec.getLsbD_or, hone, Bool.and_true]

theorem State.actionStep_eq (s : State) (m : MicroStep) :
    s.actionStep m = { s with
      lines := lineEffect s.lines m.action
      acc := (s.perform m.action).acc
      seq := { s.seq with k := s.seq.k + 1, wait := m.wait, since := s.now } } := by
  rw [State.actionStep, perform_eq]
  rfl

/-- Settles O37: SEQ is ready, so its turn is the action step, with one case for each action. -/
theorem seq_action_step : Obligations.Seq_action_step := by
  rintro s ⟨a, w⟩ hr hb hw hm
  refine ⟨s.actionStep ⟨a, w⟩, congrArg _ (seqTurn_of_action (seqReady_iff.2 ⟨hr, hb, hw⟩) hm), ?_, ?_⟩
  · rw [State.actionStep_eq]
  · cases a with
    | cfgOut | cfgIn | drive => exact ⟨rfl, rfl⟩
    | sample b => exact ⟨rfl, fun i => getLsbD_sampleInto s.acc b i (s.pin .data)⟩

/-- Settles O38: SEQ is ready, so after the last micro-step its turn is the finish. -/
theorem seq_finish_step : Obligations.Seq_finish_step := by
  intro s hr hb hw hk
  rw [performTurn, seqTurn_of_finish (seqReady_iff.2 ⟨hr, hb, hw⟩) hk, State.finishStep_eq]

/-! ### Acceptance (R101) -/

theorem Accepted.eq_acceptance {i : Instr} {s₀ s : State} (h : Accepted i s₀ s) :
    directionOk i s₀ = true ∧ s = acceptance i s₀ := by
  obtain ⟨hidle, hexec, hbusy⟩ := h
  obtain ⟨hb, -⟩ | ⟨-, -, rfl⟩ | ⟨-, hd, hs⟩ := exec_cases hexec
  · exact absurd (hb.symm.trans hidle) nofun
  · exact absurd (hbusy.symm.trans hidle) nofun
  · exact ⟨hd, hs⟩

/-- A command that is accepted and takes several steps starts its own micro-steps; only PULL_FRAME touches anything
else, and that is ACC (file 41 R130). -/
theorem Accepted.eq_start {i : Instr} {s₀ s : State} (h : Accepted i s₀ s) :
    s = { s₀ with
      acc := if i = .pullFrame then 0#8 else s₀.acc
      seq := { busy := true, cmd := i, list := microSteps i, k := 0, wait := .none, since := s₀.seq.since } } := by
  obtain ⟨-, rfl⟩ := h.eq_acceptance
  obtain ⟨hidle, -, hbusy⟩ := h
  cases i with
  | nop | read | take | edgeEn => exact absurd (hbusy.symm.trans hidle) nofun
  | cfgOut | cfgIn | set | pullFrame | resetPulse => rfl
  | latch l v =>
    cases hd : (s₀.lines.get l).dir with
    | out => rw [acceptance_latch_of_out v hd]; rfl
    | inp =>
      rw [acceptance_latch_of_inp v hd] at hbusy
      exact absurd (hbusy.symm.trans hidle) nofun

/-- The lines a command is accepted with are as its micro-steps need them (R112). -/
theorem Accepted.legal {i : Instr} {s₀ s : State} (h : Accepted i s₀ s) : legal s₀.lines (microSteps i) = true := by
  obtain ⟨hd, hs⟩ := h.eq_acceptance
  have hruns := acceptance_runsItsCommand h.1 hd (hs ▸ h.2.2)
  rw [← hs, h.eq_start] at hruns
  exact hruns.legal

/-- Settles O40: the list is the command's own, and each of those is checked entry by entry. -/
theorem every_transition_settles : Obligations.Every_transition_settles := by
  intro i s₀ s h
  have hlist : s.seq.list = microSteps i := by rw [h.eq_start]
  rw [hlist]
  cases i with
  | nop | read | take | edgeEn => exact nofun
  | cfgOut | cfgIn | set | latch => simp [microSteps]
  | pullFrame | resetPulse => decide

/-! ### A step inside a command -/

/-- What a step makes of SEQ, the lines, ACC and RESULT while a command is in progress and `rst_n` stays released. -/
inductive BusyStep (s t : State) : Prop
  /-- SEQ stays where it is, but for the end of a wait. -/
  | stays (w : WaitKind) (seq : t.seq = { s.seq with wait := w }) (lines : t.lines = s.lines) (acc : t.acc = s.acc)
      (result : t.result = s.result)
  /-- SEQ performs its next micro-step (R102). -/
  | performs (m : MicroStep) (next : s.seq.list[s.seq.k]? = some m)
      (seq : t.seq = { s.seq with k := s.seq.k + 1, wait := m.wait, since := s.now })
      (lines : t.lines = lineEffect s.lines m.action) (acc : t.acc = (s.perform m.action).acc)
      (result : t.result = s.result)
  /-- SEQ finishes the command (R103). -/
  | finishes (last : s.seq.k = s.seq.list.length) (seq : t.seq = { s.seq with busy := false })
      (lines : t.lines = s.lines) (acc : t.acc = s.acc)
      (result : t.result = if s.seq.cmd = .pullFrame then s.acc.zeroExtend 32 else s.result)

theorem BusyStep.edgeDetect {s u : State} (h : BusyStep s u) : BusyStep s u.edgeDetect := by
  cases h with
  | stays w seq lines acc result => exact .stays w (by simpa) (by simpa) (by simpa) (by simpa)
  | performs m next seq lines acc result => exact .performs m next (by simpa) (by simpa) (by simpa) (by simpa)
  | finishes last seq lines acc result => exact .finishes last (by simpa) (by simpa) (by simpa) (by simpa)

/-- Whatever turns HOST, ENV and CLOCK take, a busy block accepts no command, so SEQ alone moves the command on. -/
theorem busyStep_of_step {s t : State} (h : step s = .next t) (hb : s.seq.busy = true) (hr : t.rstN = true) :
    BusyStep s t := by
  obtain ⟨-, v, u, ⟨hs, d, ag, rfl⟩, hu, rfl⟩ := step_cases h
  rw [State.edgeDetect_rstN] at hr
  refine BusyStep.edgeDetect ?_
  generalize s.nextTurn = n at hu
  cases hu with
  | idle | fault | clock | env => exact .stays s.seq.wait rfl rfl rfl rfl
  | accept w i hrst hw hd hidle => exact absurd (hb.symm.trans hidle) nofun
  | waitOver => exact .stays .none rfl rfl rfl rfl
  | action m hready hm =>
    rw [State.actionStep_eq]
    exact .performs m hm rfl rfl (by cases m.action <;> rfl) rfl
  | finish hready hk =>
    rw [State.finishStep_eq]
    exact .finishes hk rfl rfl rfl rfl
  | rst b =>
    cases b with
    | true => exact .stays s.seq.wait rfl rfl rfl rfl
    | false => cases hr

theorem WithinCommand.head {n : Nat} {s t : State} (h : WithinCommand (n + 1) s t) :
    ∃ u, step s = .next u ∧ s.seq.busy = true ∧ u.rstN = true ∧ WithinCommand n u t := by
  obtain ⟨hrun, hvisited, ht⟩ := h
  obtain ⟨u, hu, hrest⟩ := runSteps_next hrun
  rw [visited_succ n hu, List.forall_mem_cons] at hvisited
  obtain ⟨⟨hb, -⟩, hvisited⟩ := hvisited
  refine ⟨u, hu, hb, ?_, hrest, hvisited, ht⟩
  cases n with
  | zero => cases hrest; exact ht
  | succ n =>
    obtain ⟨w, hw, -⟩ := runSteps_next hrest
    rw [visited_succ n hw, List.forall_mem_cons] at hvisited
    exact hvisited.1.2

/-- What every step inside a command keeps holds wherever a run inside it ends. -/
theorem WithinCommand.invariant {P : State → Prop}
    (keep : ∀ {s t : State}, s.seq.busy = true → BusyStep s t → P s → P t) {n : Nat} {s t : State}
    (h : WithinCommand n s t) (hs : P s) : P t := by
  induction n generalizing s with
  | zero =>
    obtain ⟨hrun, -, -⟩ := h
    cases hrun
    exact hs
  | succ n ih =>
    obtain ⟨u, hu, hb, hr, hrest⟩ := h.head
    exact ih hrest (keep hb (busyStep_of_step hu hb hr) hs)

/-! ### A command in progress, and its finish -/

theorem lineEffects_take_succ {ls : PerLine LineState} {ms : List MicroStep} {k : Nat} {m : MicroStep}
    (h : ms[k]? = some m) :
    lineEffects ls (ms.take (k + 1)) = lineEffect (lineEffects ls (ms.take k)) m.action := by
  simp [lineEffects, List.take_add_one, h]

/-- Only PULL_FRAME samples (file 41 R131). -/
theorem perform_acc_of_mem_microSteps {i : Instr} (hi : i ≠ .pullFrame) {m : MicroStep} (hm : m ∈ microSteps i)
    (s : State) : (s.perform m.action).acc = s.acc := by
  cases i with
  | pullFrame => exact absurd rfl hi
  | nop | read | take | edgeEn => cases hm
  | cfgOut | cfgIn | set | latch => rw [List.mem_singleton.1 hm]; rfl
  | resetPulse =>
    simp only [microSteps, resetPulseList, List.mem_cons, List.not_mem_nil, or_false] at hm
    obtain rfl | rfl | rfl := hm <;> rfl

/-- `t` is inside command `i`, accepted in `s₀`, or at its finish: what SEQ has done of its list, and what it has left
alone. -/
structure Performing (i : Instr) (s₀ t : State) : Prop where
  cmd : t.seq.cmd = i
  list : t.seq.list = microSteps i
  lines : t.lines = lineEffects s₀.lines ((microSteps i).take t.seq.k)
  finished : t.seq.busy = false → t.seq.k = (microSteps i).length
  result : t.seq.busy = true ∨ i ≠ .pullFrame → t.result = s₀.result
  acc : i ≠ .pullFrame → t.acc = s₀.acc

theorem Accepted.performing {i : Instr} {s₀ s : State} (h : Accepted i s₀ s) : Performing i s₀ s := by
  rw [h.eq_start]
  exact ⟨rfl, rfl, rfl, nofun, fun _ => rfl, fun hi => if_neg hi⟩

/-- Of the steps inside a command only SEQ's own touch the relation: the action step takes one more micro-step of the
list, and the finish finds the list used up. -/
theorem Performing.busyStep {i : Instr} {s₀ s t : State} (h : Performing i s₀ s) (hb : s.seq.busy = true)
    (ht : BusyStep s t) : Performing i s₀ t := by
  have hresult : s.result = s₀.result := h.result (.inl hb)
  cases ht with
  | stays w seq lines acc result =>
    refine ⟨?_, ?_, ?_, ?_, fun _ => result.trans hresult, fun hi => acc.trans (h.acc hi)⟩ <;> rw [seq]
    · exact h.cmd
    · exact h.list
    · exact lines.trans h.lines
    · exact h.finished
  | performs m next seq lines acc result =>
    rw [h.list] at next
    refine ⟨?_, ?_, ?_, ?_, fun _ => result.trans hresult, fun hi => ?_⟩
    · rw [seq]; exact h.cmd
    · rw [seq]; exact h.list
    · rw [seq, lines, h.lines, lineEffects_take_succ next]
    · rw [seq]; exact fun hidle => absurd (hb.symm.trans hidle) nofun
    · rw [acc, perform_acc_of_mem_microSteps hi (List.mem_of_getElem? next), h.acc hi]
  | finishes last seq lines acc result =>
    refine ⟨?_, ?_, ?_, ?_, fun hcond => ?_, fun hi => acc.trans (h.acc hi)⟩
    · rw [seq]; exact h.cmd
    · rw [seq]; exact h.list
    · rw [seq, lines]; exact h.lines
    · rw [seq, ← h.list]; exact fun _ => last
    · have hi : s.seq.cmd ≠ .pullFrame := by simpa [seq, h.cmd] using hcond
      rw [result, if_neg hi, hresult]

theorem WithinCommand.performing {i : Instr} {n : Nat} {s₀ s t : State} (h : WithinCommand n s t)
    (hacc : Accepted i s₀ s) : Performing i s₀ t :=
  h.invariant (fun hb hstep hs => hs.busyStep hb hstep) hacc.performing

/-- At the finish all the command's actions have been performed. -/
theorem Performing.lines_at_finish {i : Instr} {s₀ t : State} (h : Performing i s₀ t) (hidle : t.seq.busy = false) :
    t.lines = lineEffects s₀.lines (microSteps i) := by
  rw [h.lines, h.finished hidle, List.take_length]

/-- Settles O47: `Performing` holds at the acceptance, and every step inside the command keeps it. -/
theorem command_runs_its_list_in_order : Obligations.Command_runs_its_list_in_order := by
  intro i n s₀ s t hacc hrun
  have h := hrun.performing hacc
  exact ⟨h.lines, h.finished, fun hb => ⟨h.cmd, h.list, h.result (.inl hb)⟩⟩

/-- A drive keeps its line's direction, which is OUT where the drive is legal. -/
theorem lineEffects_drive_of_legal {ls : PerLine LineState} {l : Line} {v : Level} {w : WaitKind}
    (h : legal ls [⟨.drive l v, w⟩] = true) : lineEffects ls [⟨.drive l v, w⟩] = ls.put l ⟨.out, v⟩ := by
  have hd : (ls.get l).dir = .out := by simpa [legal] using h
  simp [lineEffects, lineEffect, hd]

/-- Settles O48: the lines are what the command's one action makes of them; the drive of a SET or a LATCH keeps the
direction, which the acceptance found OUT. -/
theorem line_commands_end_state : Obligations.Line_commands_end_state := by
  intro l v i n s₀ s t hacc hrun hidle
  have h := hrun.performing hacc
  have hlines := h.lines_at_finish hidle
  refine ⟨?_, ?_, ?_, ?_⟩ <;> rintro rfl <;> refine ⟨hlines.trans ?_, h.result (.inr nofun)⟩
  · rfl
  · rfl
  · exact lineEffects_drive_of_legal hacc.legal
  · exact lineEffects_drive_of_legal hacc.legal

/-- Settles O49: each run ends as O48 says, and writing a line's entry twice is writing it once; neither command's
micro-step is a sample. -/
theorem configuration_is_idempotent : Obligations.Configuration_is_idempotent := by
  intro l v i n m s₀ s t s' t' hi hacc hrun hidle hacc' hrun' hidle'
  obtain ⟨hout, hin, -, -⟩ := line_commands_end_state l v i n s₀ s t hacc hrun hidle
  obtain ⟨hout', hin', -, -⟩ := line_commands_end_state l v i m t s' t' hacc' hrun' hidle'
  have h' := hrun'.performing hacc'
  obtain rfl | rfl := hi
  · obtain ⟨hl, -⟩ := hout rfl
    obtain ⟨hl', hr'⟩ := hout' rfl
    exact ⟨by rw [hl', hl, PerLine.put_put_self], hr', h'.acc nofun, fun _ => by rw [hl, PerLine.get_put_self], nofun⟩
  · obtain ⟨hl, -⟩ := hin rfl
    obtain ⟨hl', hr'⟩ := hin' rfl
    exact ⟨by rw [hl', hl, PerLine.get_put_self, PerLine.put_put_self], hr', h'.acc nofun, nofun,
      fun _ => by rw [hl, PerLine.get_put_self]⟩

end Sys2Proof.Machine
end

section
/-! PROOF. The frame codec (file 41): what PULL_FRAME starts, the lines and pins at every point of its list, the least
time of every command, and the levels PULL_FRAME samples, of which RESULT is made. -/

namespace Sys2Proof.Machine

/-! ### The list and what it makes of the lines (R131, R140, R142) -/

theorem pullList_dataPhase (j : Fin 8) :
    pullList[5 + 3 * j.val]? = some (settled (.drive .clk false)) ∧
    pullList[6 + 3 * j.val]? = some ⟨.sample (7 - j), .none⟩ ∧
    pullList[7 + 3 * j.val]? = some (settled (.drive .clk true)) := by
  revert j; decide

/-- Settles O13: PULL_FRAME has no precondition, and the list it starts is checked entry by entry. -/
theorem pullFrame_starts : Obligations.PullFrame_starts := fun _ hb =>
  ⟨pullList, exec_accept (i := .pullFrame) hb rfl, rfl, rfl, pullList_dataPhase, rfl⟩

/-- The whole list leaves DATA IN with latch 0 and CLK OUT with latch 1, whatever the lines were (R140). -/
theorem lineEffects_pullList (ls : PerLine LineState) :
    lineEffects ls pullList = { ls with data := ⟨.inp, false⟩, clk := ⟨.out, true⟩ } := rfl

theorem linesWord_of_pullList {s t : State}
    (h : t.lines = { s.lines with data := ⟨.inp, false⟩, clk := ⟨.out, true⟩ }) :
    t.linesWord = (s.linesWord &&& 0xF0#32) ||| 0x0C#32 := by
  have hbits : ∀ rst irq clk data : BitVec 2,
      ((rst ++ irq ++ 0b11#2 ++ 0b00#2).zeroExtend 32 : Word) =
        ((rst ++ irq ++ clk ++ data).zeroExtend 32 &&& 0xF0#32) ||| 0x0C#32 := by decide
  simp only [State.linesWord, h]
  exact hbits (lineBits s.lines.rst) (lineBits s.lines.irq) (lineBits s.lines.clk) (lineBits s.lines.data)

/-- Settles O51: at the finish the whole list has been performed. -/
theorem pullFrame_end_state : Obligations.PullFrame_end_state := by
  intro n s₀ s t hacc hrun hidle
  have hlines : t.lines = { s₀.lines with data := ⟨.inp, false⟩, clk := ⟨.out, true⟩ } :=
    ((hrun.performing hacc).lines_at_finish hidle).trans (lineEffects_pullList _)
  exact ⟨by rw [hlines], by rw [hlines], by rw [hlines], by rw [hlines], linesWord_of_pullList hlines⟩

theorem BusyStep.index_le {s t : State} (h : BusyStep s t) (hs : s.seq.k ≤ s.seq.list.length) :
    t.seq.k ≤ t.seq.list.length := by
  cases h with
  | stays w seq => rwa [seq]
  | performs m next seq => rw [seq]; exact (List.getElem?_eq_some_iff.1 next).1
  | finishes last seq => rwa [seq]

theorem WithinCommand.index_le {i : Instr} {n : Nat} {s₀ s t : State} (h : WithinCommand n s t)
    (hacc : Accepted i s₀ s) : t.seq.k ≤ (microSteps i).length := by
  rw [← (h.performing hacc).list]
  exact h.invariant (fun _ hstep hs => hstep.index_le hs) (by rw [hacc.eq_start]; exact Nat.zero_le _)

/-- CLK in the table of R142: OUT from entry 1 on, at the level last driven. -/
theorem lineEffects_take_pullList_clk (ls : PerLine LineState) {k : Nat} (hk : 2 ≤ k) (hlen : k ≤ 33) :
    (lineEffects ls (pullList.take k)).clk =
      ⟨.out, decide (k ∉ [3, 4, 6, 7, 9, 10, 12, 13, 15, 16, 18, 19, 21, 22, 24, 25, 27, 28, 31, 32])⟩ := by
  interval_cases k <;> rfl

/-- DATA in the table of R142, where the block drives it: in the arm phase and in the acknowledge. -/
theorem lineEffects_take_pullList_data_out (ls : PerLine LineState) {k : Nat} (hk : k ∈ [1, 2, 3, 30, 31]) :
    (lineEffects ls (pullList.take k)).data = ⟨.out, false⟩ := by
  fin_cases hk <;> rfl

/-- DATA in the table of R142, where the block has released it. -/
theorem lineEffects_take_pullList_data_inp (ls : PerLine LineState) {k : Nat} (hk : 4 ≤ k) (hrel : k ≤ 29 ∨ 32 ≤ k)
    (hlen : k ≤ 33) : (lineEffects ls (pullList.take k)).data.dir = .inp := by
  obtain h | h := hrel <;> interval_cases k <;> rfl

/-- Settles O52: the lines are what the entries performed so far have made of them, which the table gives. -/
theorem pullFrame_pins_after_each_entry : Obligations.PullFrame_pins_after_each_entry := by
  intro n s₀ s t hacc hrun
  have hlen : t.seq.k ≤ 33 := hrun.index_le hacc
  have hlines := (hrun.performing hacc).lines
  refine ⟨fun hk => ?_, fun hk => ?_, fun hk hrel => ?_, hlen⟩
  · have hclk : t.lines.get .clk = _ :=
      (congrArg PerLine.clk hlines).trans (lineEffects_take_pullList_clk _ hk hlen)
    rw [State.pin_of_out (by rw [hclk]), hclk, decide_eq_false_iff_not, not_not]
  · have hdata : t.lines.get .data = _ :=
      (congrArg PerLine.data hlines).trans (lineEffects_take_pullList_data_out _ hk)
    rw [State.pin_of_out (by rw [hdata]), hdata]
  · have hdata : (t.lines.get .data).dir = .inp :=
      (congrArg (fun ls => ls.data.dir) hlines).trans (lineEffects_take_pullList_data_inp _ hk hrel hlen)
    exact State.pin_of_inp hdata

/-! ### Time (R138, file 42 R161, file 70 R245) -/

/-- The least time the waits of a list take together (file 10 R30). -/
def listDuration (p : Params) (ms : List MicroStep) : Nat := (ms.map fun m => waitDuration p m.wait).sum

theorem listDuration_take_succ (p : Params) {ms : List MicroStep} {k : Nat} {m : MicroStep} (h : ms[k]? = some m) :
    listDuration p (ms.take (k + 1)) = listDuration p (ms.take k) + waitDuration p m.wait := by
  simp [listDuration, List.take_add_one, h]

/-- 25 of the 33 entries settle (R138). -/
theorem listDuration_pullList (p : Params) : listDuration p pullList = 25 * p.tSettle := by
  simp only [listDuration, pullList, armAndStart, dataPhase, acknowledge, settled, List.cons_append, List.nil_append,
    List.map_cons, List.map_nil, List.sum_cons, List.sum_nil, waitDuration]
  omega

theorem listDuration_resetPulseList (p : Params) : listDuration p resetPulseList = 3 * p.tRst := by
  simp only [listDuration, resetPulseList, List.map_cons, List.map_nil, List.sum_cons, List.sum_nil, waitDuration]
  omega

/-- In a command issued at time `start`, the waits of the micro-steps performed so far have lasted, or will have when the
one in progress has; a command that has finished waits for none. -/
structure Paced (p : Params) (start : Nat) (t : State) : Prop where
  params : t.params = p
  ready : t.seq.wait = .none → start + listDuration p (t.seq.list.take t.seq.k) ≤ t.now
  waiting : t.seq.wait ≠ .none →
    start + listDuration p (t.seq.list.take t.seq.k) ≤ t.seq.since + waitDuration p t.seq.wait
  finished : t.seq.busy = false → t.seq.wait = .none

theorem Accepted.paced {i : Instr} {s₀ s : State} (h : Accepted i s₀ s) : Paced s₀.params s₀.now s := by
  rw [h.eq_start]
  exact ⟨rfl, fun _ => le_rfl, fun hw => absurd rfl hw, fun _ => rfl⟩

/-- While SEQ stays as it is, time only passes. -/
theorem Paced.of_same_seq {p : Params} {start : Nat} {v u : State} (h : Paced p start v) (hparams : u.params = v.params)
    (hseq : u.seq = v.seq) (hnow : v.now ≤ u.now) : Paced p start u := by
  refine ⟨hparams.trans h.params, ?_, ?_, ?_⟩ <;> rw [hseq]
  · exact fun hw => (h.ready hw).trans hnow
  · exact h.waiting
  · exact h.finished

/-- SEQ performs a micro-step only with no wait in progress, and begins the micro-step's own. -/
theorem Paced.actionStep {p : Params} {start : Nat} {v : State} {m : MicroStep} (h : Paced p start v)
    (hr : v.seqReady = true) (hm : v.seq.list[v.seq.k]? = some m) : Paced p start (v.actionStep m) := by
  obtain ⟨-, hb, hw⟩ := seqReady_iff.1 hr
  have hsofar := h.ready hw
  refine ⟨(v.actionStep_params m).trans h.params, ?_, ?_, ?_⟩ <;>
    simp only [State.actionStep_seq, State.actionStep_now, listDuration_take_succ p hm]
  · intro hnone
    simpa [hnone, waitDuration] using hsofar
  · intro _
    omega
  · exact fun hidle => absurd (hb.symm.trans hidle) nofun

/-- A wait ends only once it has lasted its least time. -/
theorem Paced.endWait {p : Params} {start : Nat} {v : State} (h : Paced p start v) (hw : v.seq.wait ≠ .none)
    (ho : v.waitOver = true) : Paced p start (v.setSeq { v.seq with wait := .none }) := by
  have hover : v.seq.since + waitDuration p v.seq.wait ≤ v.now := h.params ▸ of_decide_eq_true ho
  exact ⟨h.params, fun _ => (h.waiting hw).trans hover, fun hne => absurd rfl hne, fun _ => rfl⟩

theorem Paced.finishStep {p : Params} {start : Nat} {v : State} (h : Paced p start v) (hr : v.seqReady = true) :
    Paced p start v.finishStep := by
  obtain ⟨-, -, hw⟩ := seqReady_iff.1 hr
  rw [State.finishStep_eq]
  exact ⟨h.params, h.ready, h.waiting, fun _ => hw⟩

theorem Paced.step {p : Params} {start : Nat} {s t : State} (h : step s = .next t) (hb : s.seq.busy = true)
    (hr : t.rstN = true) (hs : Paced p start s) : Paced p start t := by
  obtain ⟨-, v, u, ⟨host, d, ag, rfl⟩, hu, rfl⟩ := step_cases h
  rw [State.edgeDetect_rstN] at hr
  have hv := hs.of_same_seq (u := { s with host := host, draws := d, agenda := ag }) rfl rfl le_rfl
  suffices hpaced : Paced p start u from
    hpaced.of_same_seq u.edgeDetect_params u.edgeDetect_seq u.edgeDetect_now.ge
  generalize s.nextTurn = n at hu
  cases hu with
  | idle => exact hv
  | fault | env => exact hv.of_same_seq rfl rfl le_rfl
  | clock dt => exact hv.of_same_seq rfl rfl (Nat.le_add_right _ dt)
  | accept w i hrst hw hd hidle => exact absurd (hb.symm.trans hidle) nofun
  | action m hready hm => exact hv.actionStep hready hm
  | finish hready => exact hv.finishStep hready
  | waitOver _ _ hw ho => exact hv.endWait hw ho
  | rst b =>
    cases b with
    | true => exact hv.of_same_seq rfl rfl le_rfl
    | false => cases hr

theorem WithinCommand.paced {p : Params} {start n : Nat} {s t : State} (h : WithinCommand n s t)
    (hs : Paced p start s) : Paced p start t := by
  induction n generalizing s with
  | zero =>
    obtain ⟨hrun, -, -⟩ := h
    cases hrun
    exact hs
  | succ n ih =>
    obtain ⟨u, hu, hb, hr, hrest⟩ := h.head
    exact ih hrest (hs.step hu hb hr)

/-- At the finish the waits of the whole list have lasted. -/
theorem WithinCommand.listDuration_le {i : Instr} {n : Nat} {s₀ s t : State} (h : WithinCommand n s t)
    (hacc : Accepted i s₀ s) (hidle : t.seq.busy = false) :
    s₀.now + listDuration s₀.params (microSteps i) ≤ t.now := by
  have hpaced := h.paced hacc.paced
  have hperf := h.performing hacc
  have hend := hpaced.ready (hpaced.finished hidle)
  rwa [hperf.list, hperf.finished hidle, List.take_length] at hend

/-- A LATCH that takes several steps is one of an OUT line (file 40 R110). -/
theorem Accepted.isOut_of_latch {l : Line} {v : Level} {s₀ s : State} (h : Accepted (.latch l v) s₀ s) :
    s₀.isOut l = true := by
  have hdrive := h.legal
  simp only [microSteps, Machine.legal, Bool.and_true] at hdrive
  exact hdrive

/-- The least time of a command that takes several steps is what the waits of its list take. -/
theorem Accepted.minimumTime_eq_listDuration {i : Instr} {s₀ s : State} (h : Accepted i s₀ s) :
    s₀.minimumTime i = listDuration s₀.params (microSteps i) := by
  cases i with
  | nop | read | take | edgeEn | cfgOut | cfgIn | set => rfl
  | latch l v => exact if_pos h.isOut_of_latch
  | pullFrame => exact (listDuration_pullList _).symm
  | resetPulse => exact (listDuration_resetPulseList _).symm

/-- Of the commands that take several steps all but the two long ones settle once. -/
theorem Accepted.minimumTime_eq_tSettle {i : Instr} {s₀ s : State} (h : Accepted i s₀ s) (hpull : i ≠ .pullFrame)
    (hpulse : i ≠ .resetPulse) : s₀.minimumTime i = s₀.params.tSettle := by
  cases i with
  | nop | read | take | edgeEn =>
    obtain ⟨-, rfl⟩ := h.eq_acceptance
    exact absurd (h.2.2.symm.trans h.1) nofun
  | cfgOut | cfgIn | set => rfl
  | latch l v => exact if_pos h.isOut_of_latch
  | pullFrame => exact absurd rfl hpull
  | resetPulse => exact absurd rfl hpulse

/-- LATCH of an IN line waits for nothing (file 40 R110). -/
theorem State.minimumTime_latch_of_inp {s : State} {l : Line} (v : Level) (h : (s.lines.get l).dir = .inp) :
    s.minimumTime (.latch l v) = 0 :=
  if_neg (by simp [State.isOut_iff, h])

/-- Settles O54: a command that takes several steps finishes only when the waits of its whole list have lasted; the
others are complete with their acceptance, which takes no time. -/
theorem commands_take_their_minimum_time : Obligations.Commands_take_their_minimum_time := by
  refine ⟨fun i n s₀ s t hacc hrun hidle => ⟨?_, ?_⟩, fun i l v s₀ hidle hi => ?_⟩
  · split
    · rfl
    · rfl
    · exact hacc.minimumTime_eq_tSettle ‹_› ‹_›
  · rw [hacc.minimumTime_eq_listDuration]
    exact hrun.listDuration_le hacc hidle
  · obtain rfl | rfl | rfl | ⟨hd, rfl | rfl⟩ := hi
    · exact ⟨rfl, _, exec_accept hidle rfl, hidle, rfl⟩
    · exact ⟨rfl, _, exec_accept hidle rfl, hidle, rfl⟩
    · exact ⟨rfl, _, exec_accept hidle rfl, hidle, rfl⟩
    · exact ⟨rfl, _, exec_accept hidle (State.isIn_iff.2 hd), hidle, rfl⟩
    · refine ⟨State.minimumTime_latch_of_inp v hd, _, exec_accept hidle rfl, ?_⟩
      rw [acceptance_latch_of_inp v hd]
      exact ⟨hidle, rfl⟩

/-! ### The samples (R135, R137) -/

/-- The samples of a list whose first entry is entry `k`: for each its entry and its bit. -/
def samplesFrom (k : Nat) : List MicroStep → List (Nat × Fin 8)
  | [] => []
  | ⟨.sample b, _⟩ :: ms => (k, b) :: samplesFrom (k + 1) ms
  | _ :: ms => samplesFrom (k + 1) ms

/-- The samples still ahead of the command in progress. -/
def State.samplesAhead (s : State) : List (Nat × Fin 8) := samplesFrom s.seq.k (s.seq.list.drop s.seq.k)

/-- ACC after samples of these bits at these levels (file 40 R104). -/
def sampleAll (acc : Byte) (bits : List (Fin 8)) (levels : List Level) : Byte :=
  (bits.zip levels).foldl (fun acc x => sampleInto acc x.1 x.2) acc

/-- PULL_LIST samples at every third entry from 6 on, bit 7 first (R131). -/
theorem samplesFrom_pullList :
    samplesFrom 0 pullList = [(6, 7), (9, 6), (12, 5), (15, 4), (18, 3), (21, 2), (24, 1), (27, 0)] := rfl

theorem State.samplesAhead_eq_cons {s : State} {m : MicroStep} (hm : s.seq.list[s.seq.k]? = some m) :
    s.samplesAhead = samplesFrom s.seq.k (m :: s.seq.list.drop (s.seq.k + 1)) := by
  obtain ⟨hk, rfl⟩ := List.getElem?_eq_some_iff.1 hm
  rw [State.samplesAhead, List.drop_eq_getElem_cons hk]

theorem State.samplesAhead_congr {s t : State} (hk : t.seq.k = s.seq.k) (hlist : t.seq.list = s.seq.list) :
    t.samplesAhead = s.samplesAhead := by
  rw [State.samplesAhead, hk, hlist, State.samplesAhead]

theorem Performing.samplesAhead_at_finish {i : Instr} {s₀ t : State} (h : Performing i s₀ t)
    (hidle : t.seq.busy = false) : t.samplesAhead = [] := by
  rw [State.samplesAhead, h.list, h.finished hidle, List.drop_length, samplesFrom]

/-- What a step inside a command does to ACC: it takes the next sample ahead, or takes none. -/
inductive SampleStep (s t : State) : Prop
  /-- SEQ samples DATA into the bit that comes next. -/
  | samples (b : Fin 8) (now : s.samplesNow = true) (ahead : s.samplesAhead = (s.seq.k, b) :: t.samplesAhead)
      (acc : t.acc = sampleInto s.acc b (s.pin .data))
  /-- Nothing is sampled. -/
  | none (now : s.samplesNow = false) (ahead : s.samplesAhead = t.samplesAhead) (acc : t.acc = s.acc)

/-- A turn that is not SEQ's neither samples nor moves the command on. -/
theorem sampleStep_of_other_turn {s t : State} (h : step s = .next t) (hb : s.seq.busy = true) (hr : t.rstN = true)
    (hn : s.nextTurn ≠ .seq) : SampleStep s t := by
  have hnow : s.samplesNow = false := by simp [State.samplesNow, hn]
  obtain ⟨-, v, u, ⟨host, d, ag, rfl⟩, hu, rfl⟩ := step_cases h
  rw [State.edgeDetect_rstN] at hr
  suffices hsame : u.seq.k = s.seq.k ∧ u.seq.list = s.seq.list ∧ u.acc = s.acc by
    obtain ⟨hk, hlist, hacc⟩ := hsame
    exact .none hnow (State.samplesAhead_congr (by simpa) (by simpa)).symm (by simpa)
  generalize s.nextTurn = n at hu hn
  cases hu with
  | idle | fault | clock | env | waitOver => exact ⟨rfl, rfl, rfl⟩
  | accept w i hrst hw hd hidle => exact absurd (hb.symm.trans hidle) nofun
  | action | finish => exact absurd rfl hn
  | rst b =>
    cases b with
    | true => exact ⟨rfl, rfl, rfl⟩
    | false => cases hr

/-- SEQ's action step samples exactly where its micro-step is a sample. -/
theorem sampleStep_of_action {s t : State} {m : MicroStep} (hn : s.nextTurn = .seq) (hready : s.seqReady = true)
    (hm : s.seq.list[s.seq.k]? = some m) (hk : t.seq.k = s.seq.k + 1) (hlist : t.seq.list = s.seq.list)
    (hacc : t.acc = (s.perform m.action).acc) : SampleStep s t := by
  have hahead := State.samplesAhead_eq_cons hm
  have ht : t.samplesAhead = samplesFrom (s.seq.k + 1) (s.seq.list.drop (s.seq.k + 1)) := by
    rw [State.samplesAhead, hk, hlist]
  obtain ⟨a, w⟩ := m
  cases a with
  | sample b => exact .samples b (by simp [State.samplesNow, hn, hready, hm]) (by rw [hahead, ht]; rfl) hacc
  | cfgOut | cfgIn | drive =>
    exact .none (by simp [State.samplesNow, hn, hready, hm]) (by rw [hahead, ht]; rfl) hacc

/-- SEQ's turn is its action step, or else, finishing or not, it samples nothing. -/
theorem sampleStep_of_seq_turn {s t : State} (h : step s = .next t) (hn : s.nextTurn = .seq) : SampleStep s t := by
  obtain ⟨-, u, hu, rfl⟩ := step_next_iff.1 h
  rw [hn] at hu
  cases hu
  have hready : s.popTurn.seqReady = s.seqReady := by simp [State.seqReady]
  cases hr : s.seqReady with
  | false =>
    have hsame : s.popTurn.seqTurn = s.popTurn := by simp [State.seqTurn, hready, hr]
    rw [hsame]
    exact .none (by simp [State.samplesNow, hr]) (State.samplesAhead_congr (by simp) (by simp)).symm (by simp)
  | true =>
    cases hm : s.seq.list[s.seq.k]? with
    | some m =>
      rw [seqTurn_of_action (hready.trans hr) (by simpa using hm)]
      exact sampleStep_of_action hn hr hm (by simp) (by simp) (by
        rw [State.edgeDetect_acc, State.actionStep_eq]
        cases m.action <;> simp [State.perform])
    | none =>
      have hfin : s.popTurn.seqTurn.seq.k = s.seq.k ∧ s.popTurn.seqTurn.seq.list = s.seq.list ∧
          s.popTurn.seqTurn.acc = s.acc := by
        simp only [State.seqTurn, hready, hr, if_true, State.popTurn_seq, hm, State.finishStep_eq]
        split <;> simp
      obtain ⟨hk, hlist, hacc⟩ := hfin
      exact .none (by simp [State.samplesNow, hm]) (State.samplesAhead_congr (by simpa) (by simpa)).symm (by simpa)

theorem sampleStep_of_step {s t : State} (h : step s = .next t) (hb : s.seq.busy = true) (hr : t.rstN = true) :
    SampleStep s t := by
  by_cases hn : s.nextTurn = .seq
  · exact sampleStep_of_seq_turn h hn
  · exact sampleStep_of_other_turn h hb hr hn

/-- A run to the point where no sample is ahead takes all the samples ahead at its start, in order, and ACC holds their
levels: by induction on the steps. -/
theorem WithinCommand.samples {n : Nat} {s t : State} (h : WithinCommand n s t) (hend : t.samplesAhead = []) :
    ((visited n s).filter State.samplesNow).map (fun u => u.seq.k) = s.samplesAhead.map Prod.fst ∧
    t.acc = sampleAll s.acc (s.samplesAhead.map Prod.snd) (sampledLevels (visited n s)) := by
  induction n generalizing s with
  | zero =>
    obtain ⟨hrun, -, -⟩ := h
    cases hrun
    simp [visited, hend, sampleAll]
  | succ n ih =>
    obtain ⟨u, hu, hb, hr, hrest⟩ := h.head
    obtain ⟨hentries, hacc⟩ := ih hrest
    rw [visited_succ n hu]
    cases sampleStep_of_step hu hb hr with
    | samples b now ahead acc =>
      rw [ahead]
      simpa [now, hentries, sampledLevels, sampleAll, ← acc] using hacc
    | none now ahead acc =>
      rw [ahead]
      simpa [now, hentries, sampledLevels, acc] using hacc

/-- A PULL_FRAME is in progress, or has finished and copied ACC to RESULT (file 40 R103). -/
def CopiesAccAtFinish (t : State) : Prop :=
  t.seq.cmd = .pullFrame ∧ (t.seq.busy = false → t.result = t.acc.zeroExtend 32)

theorem CopiesAccAtFinish.busyStep {s t : State} (h : CopiesAccAtFinish s) (hb : s.seq.busy = true)
    (ht : BusyStep s t) : CopiesAccAtFinish t := by
  obtain ⟨hcmd, -⟩ := h
  unfold CopiesAccAtFinish
  cases ht with
  | stays w seq | performs m next seq =>
    rw [seq]
    exact ⟨hcmd, fun hidle => absurd (hb.symm.trans hidle) nofun⟩
  | finishes last seq lines acc result =>
    rw [seq, result, acc, if_pos hcmd]
    exact ⟨hcmd, fun _ => rfl⟩

theorem WithinCommand.result_eq_acc {n : Nat} {s₀ s t : State} (h : WithinCommand n s t)
    (hacc : Accepted .pullFrame s₀ s) (hidle : t.seq.busy = false) : t.result = t.acc.zeroExtend 32 := by
  have hs : CopiesAccAtFinish s := ⟨hacc.performing.cmd, fun hi => absurd (hacc.2.2.symm.trans hi) nofun⟩
  obtain ⟨-, hcopied⟩ := h.invariant (fun hb hstep hu => hu.busyStep hb hstep) hs
  exact hcopied hidle

/-- Eight samples into a cleared ACC, from bit 7 down, make the number with those bits (R137). -/
theorem sampleAll_toNat (v0 v1 v2 v3 v4 v5 v6 v7 : Level) :
    (sampleAll 0#8 [7, 6, 5, 4, 3, 2, 1, 0] [v0, v1, v2, v3, v4, v5, v6, v7]).toNat =
      v0.toNat * 128 + v1.toNat * 64 + v2.toNat * 32 + v3.toNat * 16 + v4.toNat * 8 + v5.toNat * 4 + v6.toNat * 2 +
        v7.toNat := by
  revert v0 v1 v2 v3 v4 v5 v6 v7; decide

theorem exists_eq_of_length_eq_eight {α : Type} {l : List α} (h : l.length = 8) :
    ∃ a b c d e f g i, l = [a, b, c, d, e, f, g, i] := by
  match l, h with
  | [a, b, c, d, e, f, g, i], _ => exact ⟨a, b, c, d, e, f, g, i, rfl⟩

/-- Settles O50: the run takes the samples of PULL_LIST, from the cleared ACC, and the finish copies ACC to RESULT. -/
theorem pullFrame_result_is_the_samples : Obligations.PullFrame_result_is_the_samples := by
  intro n s₀ s t hacc hrun hidle
  obtain ⟨hentries, htacc⟩ := hrun.samples ((hrun.performing hacc).samplesAhead_at_finish hidle)
  have hahead : s.samplesAhead = samplesFrom 0 pullList := by rw [hacc.eq_start]; rfl
  have hclear : s.acc = 0#8 := by rw [hacc.eq_start]; rfl
  rw [hahead, samplesFrom_pullList] at hentries htacc
  obtain ⟨v0, v1, v2, v3, v4, v5, v6, v7, hlevels⟩ :=
    exists_eq_of_length_eq_eight (l := sampledLevels (visited n s))
      (by simpa [sampledLevels] using congrArg List.length hentries)
  refine ⟨v0, v1, v2, v3, v4, v5, v6, v7, hlevels, hentries, ?_⟩
  rw [hrun.result_eq_acc hacc hidle, htacc, hclear, hlevels, ← sampleAll_toNat]
  exact BitVec.toNat_setWidth_of_le (by decide)

end Sys2Proof.Machine
end

section
/-! PROOF. The control commands (file 42): what RESET_PULSE, TAKE and EDGE_EN do when they are issued, the level of RST
at every point of a reset pulse, and what sets and clears PEND. -/

namespace Sys2Proof.Machine

/-! ### Issuing while idle (R160, R166, R168) -/

/-- Settles O14: RESET_PULSE's precondition holds, and accepting it starts its three drives. -/
theorem resetPulse_starts : Obligations.ResetPulse_starts := fun _ hb hd =>
  exec_accept (i := .resetPulse) hb (State.isOut_iff.2 hd)

/-- Settles O15: neither command has a precondition, and the level EDGE_EN 1 captures is the one the edge detector then
compares with, so it finds no edge. -/
theorem take_and_edgeEn_complete : Obligations.Take_and_edgeEn_complete := by
  intro s hb
  have henable : exec (.edgeEn true) s = .next (s.setEdge true (s.pin .irq)) := exec_accept hb rfl
  refine ⟨exec_accept (i := .take) hb rfl, henable, ⟨_, exec_accept (i := .edgeEn false) hb rfl, rfl⟩, fun t ht => ?_⟩
  rw [henable] at ht
  cases ht
  rw [edgeDetect_of_edgePrev (s := s.setEdge true (s.pin .irq)) fun _ => rfl, State.setEdge_pend]

/-! ### The reset pulse (R160 to R162) -/

/-- The level of RST after the first `k` drives of a reset pulse that found it at `v`. -/
def resetPulseLevel (v : Level) : Nat → Level
  | 0 => v
  | 2 => false
  | _ => true

/-- The drives of a reset pulse write the latch of RST and no more (R160, R162). -/
theorem lineEffects_take_resetPulseList {ls : PerLine LineState} (hd : ls.rst.dir = .out) {k : Nat} (hk : k ≤ 3) :
    lineEffects ls (resetPulseList.take k) = ls.put .rst ⟨.out, resetPulseLevel ls.rst.lat k⟩ := by
  rw [← hd]
  interval_cases k <;> rfl

/-- Settles O53: RST was OUT at the acceptance, so its pin shows what the drives performed so far have made of its
latch. -/
theorem resetPulse_waveform : Obligations.ResetPulse_waveform := by
  intro n s₀ s t hacc hrun
  have hperf := hrun.performing hacc
  have hk : t.seq.k ≤ 3 := hrun.index_le hacc
  have hd : (s₀.lines.get .rst).dir = .out := State.isOut_iff.1 hacc.eq_acceptance.1
  have hlines : t.lines = s₀.lines.put .rst ⟨.out, resetPulseLevel s₀.lines.rst.lat t.seq.k⟩ :=
    hperf.lines.trans (lineEffects_take_resetPulseList hd hk)
  have hpin : t.pin .rst = resetPulseLevel (s₀.pin .rst) t.seq.k := by
    rw [State.pin_of_out hd, State.pin_of_out (by rw [hlines, PerLine.get_put_self]), hlines, PerLine.get_put_self]
    rfl
  refine ⟨?_, ?_, ?_, ?_, ?_, hk, hperf.finished, hperf.result (.inr nofun), hperf.acc nofun⟩
  · rw [hpin, State.pin_of_out hd]
    exact hlines
  all_goals intro heq; rw [hpin, heq]; rfl

/-! ### What a turn can do to PEND and to the edge detector (R165 to R171) -/

/-- Of the commands only TAKE writes PEND in its issuing step, and clears it (R166). -/
theorem acceptance_pend_cases (i : Instr) (s : State) :
    (acceptance i s).pend = s.pend ∨ (i = .take ∧ (acceptance i s).pend = false) := by
  cases i with
  | take => exact .inr ⟨rfl, rfl⟩
  | latch l v => left; simp only [acceptance]; split <;> rfl
  | _ => exact .inl rfl

/-- Of the commands only EDGE_EN writes `edge.en` and `edge.prev` in its issuing step (R168). -/
theorem acceptance_edge_cases (i : Instr) (s : State) :
    ((acceptance i s).edgeEn = s.edgeEn ∧ (acceptance i s).edgePrev = s.edgePrev) ∨
    ∃ b, acceptance i s = s.setEdge b (if b then s.pin .irq else s.edgePrev) := by
  cases i with
  | edgeEn b => exact .inr ⟨b, rfl⟩
  | latch l v => left; simp only [acceptance]; split <;> exact ⟨rfl, rfl⟩
  | _ => exact .inl ⟨rfl, rfl⟩

/-- Before the edge detector PEND stays, or it is cleared: by a reset, or by TAKE issued to an idle block (R165, R166). -/
theorem TurnEffect.pend_cases {s v u : State} {n : Turn} (h : TurnEffect s v n u) :
    u.pend = v.pend ∨
    (n = .rstN false ∧ u.pend = false) ∨
    (s.hostWrites (encode .take) ∧ v.seq.busy = false ∧ u.pend = false) := by
  cases h with
  | idle | fault | waitOver | clock | env => exact .inl rfl
  | action => exact .inl (by rw [State.actionStep_eq])
  | finish => exact .inl (by rw [State.finishStep_eq])
  | rst b =>
    cases b with
    | true => exact .inl rfl
    | false => exact .inr (.inl ⟨rfl, rfl⟩)
  | accept w i hr hw hd hb =>
    obtain hpend | ⟨rfl, hpend⟩ := acceptance_pend_cases i v
    · exact .inl hpend
    · exact .inr (.inr ⟨eq_encode_of_decode hd ▸ hw, hb, hpend⟩)

/-- The edge detector's own state stays, or it is reset, or EDGE_EN writes it (file 10 R32, R39). -/
theorem TurnEffect.edge_cases {s v u : State} {n : Turn} (h : TurnEffect s v n u) :
    (u.edgeEn = v.edgeEn ∧ u.edgePrev = v.edgePrev) ∨
    u.edgeEn = false ∨
    ∃ b, u = v.setEdge b (if b then v.pin .irq else v.edgePrev) := by
  cases h with
  | idle | fault | waitOver | clock | env => exact .inl ⟨rfl, rfl⟩
  | action => exact .inl (by rw [State.actionStep_eq]; exact ⟨rfl, rfl⟩)
  | finish => exact .inl (by rw [State.finishStep_eq]; exact ⟨rfl, rfl⟩)
  | accept w i =>
    obtain hsame | hset := acceptance_edge_cases i v
    · exact .inl hsame
    · exact .inr (.inr hset)
  | rst b =>
    cases b with
    | true => exact .inl ⟨rfl, rfl⟩
    | false => exact .inr (.inl rfl)

/-- No turn sets PEND: only the edge detector does (R170). -/
theorem TurnEffect.pend_of_pend {s v u : State} {n : Turn} (h : TurnEffect s v n u) (hu : u.pend = true) :
    v.pend = true := by
  obtain hpend | ⟨-, hpend⟩ | ⟨-, -, hpend⟩ := h.pend_cases
  · exact hpend ▸ hu
  · exact absurd (hu.symm.trans hpend) nofun
  · exact absurd (hu.symm.trans hpend) nofun

/-- With detection enabled after a turn, the edge detector compares `pin(IRQ)` with its level before the turn, whether
the turn was an EDGE_EN or not (R168, R170). -/
theorem TurnEffect.edgePrev_of_enabled {s v u : State} {n : Turn} (h : TurnEffect s v n u)
    (hv : v.edgeEn = true → v.edgePrev = v.pin .irq) (hen : u.edgeEn = true) : u.edgePrev = v.pin .irq := by
  obtain ⟨hsame, hprev⟩ | hoff | ⟨b, rfl⟩ := h.edge_cases
  · rw [hprev, hv (hsame ▸ hen)]
  · exact absurd (hen.symm.trans hoff) nofun
  · exact if_pos hen

/-- Only EDGE_EN enables detection, and it moves no pin (R168). -/
theorem TurnEffect.pin_of_enabling {s v u : State} {n : Turn} (h : TurnEffect s v n u) (hoff : v.edgeEn = false)
    (hen : u.edgeEn = true) : u.pin .irq = v.pin .irq := by
  obtain ⟨hsame, -⟩ | hoff' | ⟨b, rfl⟩ := h.edge_cases
  · exact absurd (hen.symm.trans (hsame.trans hoff)) nofun
  · exact absurd (hen.symm.trans hoff') nofun
  · rfl

/-- A block held in reset has detection disabled (file 70 R230). -/
theorem rstN_of_enabled {u : State} (hreset : u.rstN = false → u.HeldInReset) (hen : u.edgeEn = true) :
    u.rstN = true := by
  by_contra hlow
  obtain ⟨-, -, -, hoff, -⟩ := hreset (by simpa using hlow)
  exact absurd (hen.symm.trans hoff) nofun

/-- A step sets PEND exactly where `pin(IRQ)` falls with detection enabled after the turn (R170). -/
theorem TurnEffect.edgeDetect_pend {s v u : State} {n : Turn} (h : TurnEffect s v n u) (hv : v.Inv)
    (hrst : v.rstN = s.rstN) :
    u.edgeDetect.pend = (u.pend || (u.edgeEn && v.pin .irq && !u.pin .irq)) := by
  rw [State.edgeDetect_pend]
  cases hen : u.edgeEn with
  | false => simp
  | true => simp [h.edgePrev_of_enabled hv.edgePrev hen, rstN_of_enabled (h.heldInReset hrst hv.inReset) hen]

/-- Settles O42: before the edge detector no turn sets PEND, and the edge detector sets it exactly at a fall since the
step before, of which a step that enables detection has none. -/
theorem pend_rises_exactly_on_falling_edge : Obligations.Pend_rises_exactly_on_falling_edge := by
  intro s t hs h
  obtain ⟨-, v, u, hv, hu, rfl⟩ := step_cases h
  have hvi := hv.inv hs
  obtain ⟨host, d, ag, rfl⟩ := hv
  have hkeep : u.pend = true → s.pend = true := hu.pend_of_pend
  have hpend : u.edgeDetect.pend = (u.pend || (u.edgeEn && s.pin .irq && !u.pin .irq)) := hu.edgeDetect_pend hvi rfl
  rw [hpend, State.edgeDetect_edgeEn, State.edgeDetect_pin]
  refine ⟨fun _ hen => ⟨fun hhigh hlow => by simp [hen, hhigh, hlow], fun hclear hrise => ?_⟩, fun hoff hset => ?_⟩
  · have hu0 : u.pend = false :=
      Bool.eq_false_iff.2 fun hu1 => absurd ((hkeep hu1).symm.trans hclear) nofun
    simpa [hu0, hen] using hrise
  · cases hen : u.edgeEn with
    | false => exact hkeep (by simpa [hen] using hset)
    | true =>
      have hpin : u.pin .irq = s.pin .irq := hu.pin_of_enabling hoff hen
      exact hkeep (by simpa [hen, hpin] using hset)

/-- Settles O43: the edge detector never clears PEND, and of the turns only those of `TurnEffect.pend_cases` do. -/
theorem pend_falls_only_by_take : Obligations.Pend_falls_only_by_take := by
  intro s t h hset hclear
  obtain ⟨-, v, u, ⟨host, d, ag, rfl⟩, hu, rfl⟩ := step_cases h
  have hu0 : u.pend = false := by
    rw [State.edgeDetect_pend, Bool.or_eq_false_iff] at hclear
    exact hclear.1
  obtain hpend | ⟨hn, -⟩ | ⟨hw, hb, -⟩ := hu.pend_cases
  · exact absurd (hset.symm.trans (hpend.symm.trans hu0)) nofun
  · exact .inl hn
  · exact .inr ⟨hw, hb⟩

end Sys2Proof.Machine
end

section
/-! PROOF. The frame consumer (file 45): the fields of a frame, the lookup in KEYMAP, what is reported for a frame, the
capability set, and the dispatch that ends a decode. -/

namespace Sys2Proof.Machine

/-! ### The fields of a frame (R181 to R183) -/

theorem framePressed_eq (v : Byte) : framePressed v = decide (v.toNat < 128) := by
  have hbit : v.getLsbD 7 = decide (128 ≤ v.toNat) := (BitVec.msb_eq_getLsbD_last v).symm.trans v.msb_eq_decide
  rw [framePressed, hbit, ← decide_not, decide_eq_decide, Nat.not_le]

theorem frameRow_eq (v : Byte) : frameRow v = v.toNat / 16 % 8 := by
  rw [frameRow, BitVec.extractLsb'_toNat, Nat.shiftRight_eq_div_pow]

theorem frameCol_eq (v : Byte) : frameCol v = if v.toNat % 16 = 0 then 0 else v.toNat % 16 - 1 := by
  simp only [frameCol, BitVec.extractLsb'_toNat, Nat.shiftRight_zero, Nat.reducePow, ne_eq, ite_not]

/-- Settles O57: the three fields in arithmetic, from which the bounds follow. -/
theorem frame_fields : Obligations.Frame_fields := by
  refine fun v => ⟨framePressed_eq v, frameRow_eq v, frameCol_eq v, ?_, ?_⟩
  · rw [frameRow_eq]; omega
  · rw [frameCol_eq]; split <;> omega

/-! ### The lookup (R184, R185) -/

theorem inRange_iff {c : ConsumerParams} {row col : Nat} : inRange c row col = true ↔ row < c.rows ∧ col < c.cols := by
  simp [inRange]

/-- Each row takes COLS pairs of entries, so a pair of the grid has both its entries within `2 * ROWS * COLS`. -/
theorem keyIndex_add_two_le {c : ConsumerParams} {row col : Nat} (hrow : row < c.rows) (hcol : col < c.cols) :
    keyIndex c row col + 2 ≤ 2 * c.rows * c.cols :=
  calc keyIndex c row col + 2 = 2 * (row * c.cols + (col + 1)) := rfl
    _ ≤ 2 * (row * c.cols + c.cols) := Nat.mul_le_mul_left 2 (Nat.add_le_add_left hcol _)
    _ = 2 * ((row + 1) * c.cols) := by rw [Nat.succ_mul row]
    _ ≤ 2 * (c.rows * c.cols) := Nat.mul_le_mul_left 2 (Nat.mul_le_mul_right c.cols hrow)
    _ = 2 * c.rows * c.cols := (Nat.mul_assoc 2 c.rows c.cols).symm

theorem ConsumerParams.length_keymap_of_wf {c : ConsumerParams} (h : c.wf = true) :
    2 * c.rows * c.cols ≤ c.keymap.length :=
  of_decide_eq_true (Bool.and_eq_true_iff.1 h).2

theorem keyIndex_lt_length {c : ConsumerParams} {row col : Nat} (h : c.wf = true) (hrow : row < c.rows)
    (hcol : col < c.cols) : keyIndex c row col < c.keymap.length := by
  have hgrid := keyIndex_add_two_le hrow hcol
  have hlength := ConsumerParams.length_keymap_of_wf h
  omega

/-- Settles O58: KEYMAP has at least `2 * ROWS * COLS` entries, and the index is two or more below that. -/
theorem lookup_stays_in_keymap : Obligations.Lookup_stays_in_keymap := by
  intro c row col h hrow hcol
  have hlt := keyIndex_lt_length h hrow hcol
  have hentry := List.getElem?_eq_getElem hlt
  exact ⟨rfl, Nat.mul_mod_right 2 _, Nat.le_sub_of_add_le (keyIndex_add_two_le hrow hcol), hlt, _, hentry, hentry⟩

/-! ### What is reported for a frame (R184, R186) -/

theorem keyEvent_eq_some_iff {c : ConsumerParams} {v : Byte} {kc : Int} {p : Bool} :
    keyEvent c v = some (kc, p) ↔
      inRange c (frameRow v) (frameCol v) = true ∧ keycodeAt c (keyIndex c (frameRow v) (frameCol v)) = some kc ∧
      kc ≠ c.keyUnknown ∧ framePressed v = p := by
  unfold keyEvent
  cases inRange c (frameRow v) (frameCol v) with
  | false => simp
  | true =>
    cases keycodeAt c (keyIndex c (frameRow v) (frameCol v)) with
    | none => simp
    | some k =>
      by_cases hk : k = kc
      · simp [hk]
      · simp [hk]

/-- The calls for a frame are those of its key event, of which there is one or none (R186). -/
theorem consume_cases (c : ConsumerParams) (v : Byte) :
    consume c v = [] ∨ ∃ kc p, keyEvent c v = some (kc, p) ∧ consume c v = [.reportKey kc p, .sync] := by
  unfold consume
  split
  · exact .inr ⟨_, _, ‹_›, rfl⟩
  · exact .inl rfl

theorem consume_of_keycode {c : ConsumerParams} {v : Byte} {kc : Int}
    (hrange : inRange c (frameRow v) (frameCol v) = true)
    (hkc : keycodeAt c (keyIndex c (frameRow v) (frameCol v)) = some kc) :
    consume c v = if kc = c.keyUnknown then [] else [.reportKey kc (framePressed v), .sync] := by
  simp only [consume, keyEvent, hrange, hkc, if_true]
  split_ifs <;> rfl

theorem consume_of_not_inRange {c : ConsumerParams} {v : Byte} (h : ¬ inRange c (frameRow v) (frameCol v) = true) :
    consume c v = [] := by
  rw [consume, keyEvent, if_neg h]

/-- Settles O59: in range the lookup finds a keycode; a row or a column out of range fails the range check. -/
theorem frame_emission : Obligations.Frame_emission := by
  refine fun c v h => ⟨fun hrow hcol => ?_, fun hout => consume_of_not_inRange fun hin => ?_⟩
  · obtain ⟨-, -, -, -, kc, hentry, hkc⟩ := lookup_stays_in_keymap c _ _ h hrow hcol
    exact ⟨kc, hentry, consume_of_keycode (inRange_iff.2 ⟨hrow, hcol⟩) hkc⟩
  · obtain ⟨hrow, hcol⟩ := inRange_iff.1 hin
    omega

/-! ### The capability set (R188) -/

theorem keyEvent_of_reportKey_mem {c : ConsumerParams} {v : Byte} {kc : Int} {p : Bool}
    (h : SinkCall.reportKey kc p ∈ consume c v) : keyEvent c v = some (kc, p) := by
  obtain hnone | ⟨k, q, hevent, hcalls⟩ := consume_cases c v
  · simp [hnone] at h
  · obtain ⟨rfl, rfl⟩ : kc = k ∧ p = q := by simpa [hcalls] using h
    exact hevent

theorem getElem?_evenEntries (l : List Int) (j : Nat) : (evenEntries l)[j]? = l[2 * j]? := by
  induction l using evenEntries.induct generalizing j with
  | case1 => rfl
  | case2 x => cases j <;> rfl
  | case3 x y rest ih =>
    cases j with
    | zero => rfl
    | succ j => exact ih j

theorem mem_evenEntries {l : List Int} {x : Int} : x ∈ evenEntries l ↔ ∃ j, l[2 * j]? = some x := by
  simp only [List.mem_iff_getElem?, getElem?_evenEntries]

theorem mem_capabilitySet_iff {c : ConsumerParams} {kc : Int} :
    kc ∈ capabilitySet c ↔ kc ≠ c.keyUnknown ∧ ∃ j, c.keymap[2 * j]? = some kc := by
  rw [capabilitySet, List.mem_filter, mem_evenEntries, bne_iff_ne, and_comm]

/-- Settles O60: a keycode that is reported is not KEY_UNKNOWN, and every lookup is at an even index. -/
theorem capability_set : Obligations.Capability_set := by
  refine fun c => ⟨fun _ => mem_capabilitySet_iff, fun v kc p hreport => ?_⟩
  obtain ⟨-, hkc, hknown, -⟩ := keyEvent_eq_some_iff.1 (keyEvent_of_reportKey_mem hreport)
  exact mem_capabilitySet_iff.2 ⟨hknown, _, hkc⟩

/-! ### The dispatch that ends a decode (R189) -/

theorem opAccess_dispatch {s : State} {v : Byte} (h : s.host.engine = .decoding (.dispatch v)) :
    s.opAccess .decodeTask = none := by
  rw [State.opAccess, h]

theorem hostOp_dispatch {s : State} {v : Byte} (h : s.host.engine = .decoding (.dispatch v)) :
    hostOp .decodeTask s = .next (s.dispatchFrame v) := by
  rw [hostOp, opAccess_dispatch h, accessIfAny, onNext, State.afterOp, State.afterDecodeStep, h]

/-- Settles O31: at its last stage the decode task makes no access, and its software is the dispatch of the frame. -/
theorem dispatch_emits_at_most_one_event : Obligations.Dispatch_emits_at_most_one_event := by
  refine fun s v h => ⟨opAccess_dispatch h, consume s.host.consumer v, hostOp_dispatch h, rfl, ?_⟩
  exact (consume_cases s.host.consumer v).imp_right fun ⟨kc, p, _, hcalls⟩ => ⟨kc, p, hcalls⟩

end Sys2Proof.Machine
end

section
/-! PROOF. Faults (file 60): whose step records a fault and how long it stays recorded, and a word written to CMD while
the block is busy. -/

namespace Sys2Proof.Machine

/-! ### FAULT and FCAUSE are sticky (R202, R205) -/

/-- Settles O21: the edge detector leaves FAULT and FCAUSE, and but for a reset a turn that writes them is HOST's and
keeps the first cause. -/
theorem fault_sticky_and_only_from_host : Obligations.Fault_sticky_and_only_from_host := by
  intro s t h hn
  obtain ⟨-, v, u, ⟨hs, d, ag, rfl⟩, hu, rfl⟩ := step_cases h
  rw [State.edgeDetect_fault, State.edgeDetect_fcause]
  obtain ⟨hfault, hcause⟩ | ⟨hreset, -⟩ | ⟨hhost, hfault, _, hcause⟩ := hu.fault_cases
  · refine ⟨fun hset => ⟨hfault.trans hset, hcause⟩, fun hclear hset => ?_⟩
    exact absurd (hset.symm.trans (hfault.trans hclear)) nofun
  · exact absurd hreset hn
  · exact ⟨fun hset => ⟨hfault, hcause.trans (if_pos hset)⟩, fun _ _ => hhost⟩

/-! ### A word written to CMD while busy (R201) -/

/-- While a command is in progress no word is issued, whether it is a command's or not. -/
theorem issueWord_busy (w : Word) {s : State} (hb : s.seq.busy = true) : issueWord w s = .next (s.raise .busy) := by
  by_cases hw : ∃ i, w = encode i
  · obtain ⟨i, rfl⟩ := hw
    rw [issueWord_of_decode (decode_encode i), exec_busy i hb]
  · rw [issueWord_of_ne_encode (not_exists.1 hw), if_pos hb]

/-- Settles O16: with `rst_n` released the write issues the word, which while busy records BUSY alone. -/
theorem busy_discards_word : Obligations.Busy_discards_word := by
  intro s w hr hb
  rw [access_write_cmd, if_pos hr, issueWord_busy w hb]
  rfl

end Sys2Proof.Machine
end

section
/-! PROOF. Reset and hazards (file 70): a host access while `rst_n` is asserted. -/

namespace Sys2Proof.Machine

/-! ### Accesses during reset (R231) -/

/-- In reset a read of any offset and width hands the host 0 and records no fault. -/
theorem access_read_of_rstN_low {s : State} {off : Nat} (n : Nat) (hr : s.rstN = false) (hoff : off < 16) :
    access (.read (s.params.base + off) n) s = .next (s.setData 0#32) := by
  rw [access, memRead, if_pos (inWindow_base_add hoff), if_neg (ne_true_of_eq_false hr)]

/-- In reset a write of any offset and width is ignored. -/
theorem access_write_of_rstN_low {s : State} {off : Nat} (n : Nat) (v : Word) (hr : s.rstN = false) (hoff : off < 16) :
    access (.write (s.params.base + off) n v) s = .next s := by
  rw [access, memWrite, if_pos (inWindow_base_add hoff), if_neg (ne_true_of_eq_false hr)]

/-- Settles O35: `rst_n` is looked at before the width and the offset of the access; a turn of ENV does not look at it. -/
theorem accesses_during_reset : Obligations.Accesses_during_reset := fun _ _ n v hr hoff =>
  ⟨access_read_of_rstN_low n hr hoff, access_write_of_rstN_low n v hr hoff, edgeDetect_of_rstN_low hr,
    fun _ _ => rfl⟩

end Sys2Proof.Machine
end

section
/-! PROOF. The decode (file 70 section 3, file 45): the interrupt entry that schedules it, the next state of each stage of
its task, and what a step can do to the engine and the sink. -/

namespace Sys2Proof.Machine

/-! ### The interrupt entry (file 60 R207, file 70 R237) -/

theorem State.decodeScheduled_iff {s : State} :
    s.decodeScheduled = true ↔ (if s.host.engine = .idle then 0 else 1) < s.host.program.count .decodeTask :=
  decide_eq_true_iff

/-- A task put behind the program waits there to start: an engine that is Decoding goes on with another one. -/
theorem State.decodeScheduled_append {s : State} (h : s.host.engine = .idle ∨ HostOp.decodeTask ∈ s.host.program) :
    (s.setProgram (s.host.program ++ [.decodeTask])).decodeScheduled = true := by
  rw [State.decodeScheduled_iff, State.setProgram_host, List.count_append, List.count_singleton_self, Nat.lt_add_one_iff]
  split
  · exact Nat.zero_le _
  · exact List.count_pos_iff.2 (h.resolve_left ‹_›)

/-- Settles O29: the entry looks at `irq_out` and at what the program holds, and one more task in the program is one that
waits to start. -/
theorem irqEntry_schedules_one_decode : Obligations.IrqEntry_schedules_one_decode := by
  refine fun s => ⟨fun hirq hnone => ⟨_, ?_, rfl, State.decodeScheduled_append⟩, fun h => ?_⟩
  · rw [performTurn, State.irqEntry, hirq, hnone]
    rfl
  · have hno : ¬ (s.irqOut && !s.decodeScheduled) = true := by
      obtain h | h := h <;> simp [h]
    rw [performTurn, State.irqEntry, if_neg hno]

/-! ### The stages of the decode task (file 70 R237, file 45 R189) -/

/-- The engine and the sink of `t` are those of `s`. -/
def SameEngineAndSink (s t : State) : Prop := t.host.engine = s.host.engine ∧ t.host.sink = s.host.sink

theorem access_keeps_engine_sink {x : Access} {s t : State} (h : access x s = .next t) : SameEngineAndSink s t := by
  rw [SameEngineAndSink, access_host h]
  exact ⟨rfl, rfl⟩

/-- The access by which HOST issues a command: ignored in reset. -/
theorem access_cmdWrite (s : State) (i : Instr) :
    access (cmdWrite s.params i) s = if s.rstN then exec i s else .next s := by
  rw [← issueWord_of_decode (decode_encode i)]
  exact access_write_cmd s (encode i)

/-- The software that follows the access of a decode step is that of the stage the access was made at, since no access
moves the engine. -/
theorem onNext_afterOp_decodeTask {x : Access} {s : State} {f : State → State}
    (h : ∀ t : State, t.host.engine = s.host.engine → t.afterDecodeStep = f t) :
    onNext (fun t => t.afterOp .decodeTask) (access x s) = onNext f (access x s) := by
  cases hx : access x s with
  | next t => exact congrArg Host.Outcome.next (h t (access_keeps_engine_sink hx).1)
  | fault | refused => rfl

theorem hostOp_decode_idle {s : State} (he : s.host.engine = .idle) :
    hostOp .decodeTask s = onNext (fun t => t.goOnDecoding .pull) (access (cmdWrite s.params .take) s) := by
  rw [hostOp, State.opAccess, he, accessIfAny_some]
  exact onNext_afterOp_decodeTask fun t ht => by rw [State.afterDecodeStep, ht, he]

theorem hostOp_decode_pull {s : State} (he : s.host.engine = .decoding .pull) :
    hostOp .decodeTask s = onNext (fun t => t.goOnDecoding .wait) (access (cmdWrite s.params .pullFrame) s) := by
  rw [hostOp, State.opAccess, he, accessIfAny_some]
  exact onNext_afterOp_decodeTask fun t ht => by rw [State.afterDecodeStep, ht, he]

/-- The poll goes on while BUSY = 1; in reset STATUS reads 0, which ends it. -/
theorem hostOp_decode_wait {s : State} (he : s.host.engine = .decoding .wait) :
    hostOp .decodeTask s = .next ((s.setData (if s.rstN then s.statusWord else 0#32)).goOnDecoding
      (if s.rstN && s.seq.busy then .wait else .read)) := by
  have hbit : (if s.rstN then s.statusWord else 0#32).getLsbD 0 = (s.rstN && s.seq.busy) := by
    cases s.rstN with
    | true => exact statusWord_busy s
    | false => exact BitVec.getLsbD_zero
  rw [hostOp, State.opAccess, he, accessIfAny_some, access_statusRead, onNext, State.afterOp, State.afterDecodeStep,
    State.setData_host, he, ← hbit]

theorem hostOp_decode_read {s : State} (he : s.host.engine = .decoding .read) :
    hostOp .decodeTask s = .next ((s.setData (if s.rstN then s.result else 0#32)).goOnDecoding
      (.dispatch (if s.rstN then s.result.extractLsb' 0 8 else 0#8))) := by
  rw [hostOp, State.opAccess, he, accessIfAny_some, access_resultRead, onNext, State.afterOp, State.afterDecodeStep,
    State.setData_host, he]
  cases s.rstN <;> rfl

/-- Settles O30: one case for each stage; the block is idle where the task issues a command, which is accepted. -/
theorem decode_task_follows_protocol : Obligations.Decode_task_follows_protocol := by
  intro s hr goOn
  have hissue {i : Instr} (hb : s.seq.busy = false) (hd : directionOk i s = true) :
      access (cmdWrite s.params i) s = .next (acceptance i s) := by
    rw [access_cmdWrite, if_pos hr, exec_accept hb hd]
  refine ⟨fun he hb => ?_, fun he hb => ⟨_, exec_accept hb rfl, ?_⟩, fun he => ?_, fun he => ?_⟩
  · rw [hostOp_decode_idle he, hissue hb rfl]
    rfl
  · rw [hostOp_decode_pull he, hissue hb rfl]
    rfl
  · rw [hostOp_decode_wait he, hr]
    rfl
  · rw [hostOp_decode_read he, hr]
    rfl

/-! ### The engine and the sink (file 45 R189) -/

@[simp] theorem State.popHostOp_engine (s : State) : s.popHostOp.host.engine = s.host.engine := by
  unfold State.popHostOp; split <;> rfl
@[simp] theorem State.popHostOp_sink (s : State) : s.popHostOp.host.sink = s.host.sink := by
  unfold State.popHostOp; split <;> rfl
@[simp] theorem State.popHostOp_consumer (s : State) : s.popHostOp.host.consumer = s.host.consumer := by
  unfold State.popHostOp; split <;> rfl

/-- The engine after a step of the decode task. -/
def State.nextEngine (s : State) : Engine :=
  match s.host.engine with
  | .idle                   => .decoding .pull
  | .decoding .pull         => .decoding .wait
  | .decoding .wait         => .decoding (if s.rstN && s.seq.busy then .wait else .read)
  | .decoding .read         => .decoding (.dispatch (if s.rstN then s.result.extractLsb' 0 8 else 0#8))
  | .decoding (.dispatch _) => .idle

/-- The calls that a step of the decode task makes to the sink. -/
def State.nextCalls (s : State) : List SinkCall :=
  match s.host.engine with
  | .decoding (.dispatch v) => consume s.host.consumer v
  | _                       => []

@[simp] theorem State.popHostOp_nextEngine (s : State) : s.popHostOp.nextEngine = s.nextEngine := by
  simp [State.nextEngine]
@[simp] theorem State.popHostOp_nextCalls (s : State) : s.popHostOp.nextCalls = s.nextCalls := by
  simp [State.nextCalls]
@[simp] theorem State.popTurn_nextEngine (s : State) : s.popTurn.nextEngine = s.nextEngine := by
  simp [State.nextEngine]
@[simp] theorem State.popTurn_nextCalls (s : State) : s.popTurn.nextCalls = s.nextCalls := by
  simp [State.nextCalls]

theorem goOnDecoding_of_access {x : Access} {s t : State} {g : DecodeStage}
    (h : onNext (fun u => u.goOnDecoding g) (access x s) = .next t) :
    t.host.engine = .decoding g ∧ t.host.sink = s.host.sink := by
  obtain ⟨u, hu, rfl⟩ := onNext_next.1 h
  exact ⟨rfl, (access_keeps_engine_sink hu).2⟩

theorem hostOp_decodeTask_engine_sink {s t : State} (h : hostOp .decodeTask s = .next t) :
    t.host.engine = s.nextEngine ∧ t.host.sink = s.host.sink ++ s.nextCalls := by
  unfold State.nextEngine State.nextCalls
  match he : s.host.engine with
  | .idle =>
    rw [List.append_nil]
    exact goOnDecoding_of_access (hostOp_decode_idle he ▸ h)
  | .decoding .pull =>
    rw [List.append_nil]
    exact goOnDecoding_of_access (hostOp_decode_pull he ▸ h)
  | .decoding .wait =>
    cases (hostOp_decode_wait he).symm.trans h
    exact ⟨rfl, (List.append_nil _).symm⟩
  | .decoding .read =>
    cases (hostOp_decode_read he).symm.trans h
    exact ⟨rfl, (List.append_nil _).symm⟩
  | .decoding (.dispatch v) =>
    cases (hostOp_dispatch he).symm.trans h
    exact ⟨rfl, rfl⟩

theorem hostOp_keeps_engine_sink {op : HostOp} {s t : State} (h : hostOp op s = .next t) (hop : op ≠ .decodeTask) :
    SameEngineAndSink s t := by
  obtain ⟨u, hu, rfl⟩ := onNext_next.1 h
  cases op with
  | access x => exact access_keeps_engine_sink hu
  | waitIdle =>
    have hkeep : SameEngineAndSink s u := access_keeps_engine_sink (x := statusRead s.params) hu
    rw [State.afterOp, State.afterStatusRead]
    split <;> exact hkeep
  | decodeTask => exact absurd rfl hop

theorem performTurn_keeps_engine_sink {n : Turn} {s u : State} (h : performTurn n s = .next u) (hn : n ≠ .host) :
    SameEngineAndSink s u := by
  cases n with
  | host => exact absurd rfl hn
  | irqEntry =>
    cases h
    unfold State.irqEntry
    split <;> exact ⟨rfl, rfl⟩
  | seq =>
    cases h
    obtain hu | ⟨-, m, -, hu⟩ | ⟨-, -, hu⟩ := seqTurn_cases s
    · rw [hu]; exact ⟨rfl, rfl⟩
    · rw [hu, State.actionStep_eq]; exact ⟨rfl, rfl⟩
    · rw [hu, State.finishStep_eq]; exact ⟨rfl, rfl⟩
  | waitEnd =>
    cases h
    obtain hu | ⟨-, -, -, -, hu⟩ := endWait_cases s <;> rw [hu] <;> exact ⟨rfl, rfl⟩
  | clock | env => cases h; exact ⟨rfl, rfl⟩
  | rstN b => cases h; cases b <;> exact ⟨rfl, rfl⟩

/-- Of all that can happen in a step only the decode task touches the engine or the sink. -/
theorem step_engine_sink_cases {s t : State} (h : step s = .next t) :
    SameEngineAndSink s t ∨
    (s.decodeTurn ∧ t.host.engine = s.nextEngine ∧ t.host.sink = s.host.sink ++ s.nextCalls) := by
  obtain ⟨-, u, hu, rfl⟩ := step_next_iff.1 h
  by_cases hn : s.nextTurn = .host
  · rw [hn] at hu
    by_cases hop : s.popTurn.nextHostOp = .decodeTask
    · refine .inr ⟨⟨hn, hop⟩, ?_⟩
      rw [performTurn, hostTurn, hop] at hu
      simpa using hostOp_decodeTask_engine_sink hu
    · exact .inl (by simpa [SameEngineAndSink] using hostOp_keeps_engine_sink hu hop)
  · exact .inl (by simpa [SameEngineAndSink] using performTurn_keeps_engine_sink hu hn)

/-- Settles O32: a step that moves the engine or calls the sink is one of the decode task, which does what its stage says;
the wait goes on while BUSY = 1, which leaves the engine as it is. -/
theorem engine_moves_only_along_a_decode : Obligations.Engine_moves_only_along_a_decode := by
  intro s t h
  obtain ⟨hengine, hsink⟩ | ⟨hturn, hengine, hsink⟩ := step_engine_sink_cases h
  · exact ⟨fun hne => absurd hengine hne, fun hne => absurd hsink hne⟩
  rw [hengine, hsink]
  refine ⟨fun hne => ⟨hturn, ?_⟩, fun hne => ⟨hturn, ?_⟩⟩ <;> unfold State.nextEngine
  · unfold State.nextEngine at hne
    match he : s.host.engine with
    | .idle | .decoding .pull | .decoding .read | .decoding (.dispatch v) => rfl
    | .decoding .wait =>
      cases hbusy : s.rstN && s.seq.busy with
      | true => exact absurd (by rw [he, hbusy]; rfl) hne
      | false => exact ⟨rfl, fun hr => by simpa [hr] using hbusy⟩
  · unfold State.nextCalls at hne ⊢
    match he : s.host.engine with
    | .decoding (.dispatch v) => exact ⟨v, rfl, rfl, rfl⟩
    | .idle | .decoding .pull | .decoding .wait | .decoding .read =>
      rw [he] at hne
      exact absurd (List.append_nil _) hne

end Sys2Proof.Machine
end

section
/-! PROOF. Progress (file 70): what each turn does to the SEQ steps and wait ends that a command has still to take. -/

namespace Sys2Proof.Machine

/-! ### The steps ahead (R246) -/

/-- The SEQ steps and wait ends that a list takes: one for each action, and one for each wait. -/
def stepsOf (ms : List MicroStep) : Nat := (ms.map fun m => if m.wait = .none then 1 else 2).sum

theorem stepsOf_cons (m : MicroStep) (ms : List MicroStep) :
    stepsOf (m :: ms) = (if m.wait = .none then 1 else 2) + stepsOf ms := rfl

theorem State.remaining_of_busy {s : State} (hb : s.seq.busy = true) :
    s.remaining = stepsOf (s.seq.list.drop s.seq.k) + (if s.seq.wait = .none then 0 else 1) + 1 := if_pos hb

theorem State.remaining_of_idle {s : State} (hb : s.seq.busy = false) : s.remaining = 0 :=
  if_neg (ne_true_of_eq_false hb)

/-- What remains is a matter of SEQ alone. -/
theorem State.remaining_congr {s t : State} (h : t.seq = s.seq) : t.remaining = s.remaining := by
  rw [State.remaining, h, State.remaining]

@[simp] theorem State.edgeDetect_remaining (s : State) : s.edgeDetect.remaining = s.remaining :=
  State.remaining_congr s.edgeDetect_seq

@[simp] theorem State.popTurn_remaining (s : State) : s.popTurn.remaining = s.remaining :=
  State.remaining_congr s.popTurn_seq

/-- The action step takes its micro-step from the list, and leaves its wait to end. -/
theorem State.actionStep_remaining {s : State} {m : MicroStep} (hr : s.seqReady = true)
    (hm : s.seq.list[s.seq.k]? = some m) : (s.actionStep m).remaining + 1 = s.remaining := by
  obtain ⟨-, hb, hw⟩ := seqReady_iff.1 hr
  obtain ⟨hk, rfl⟩ := List.getElem?_eq_some_iff.1 hm
  rw [State.remaining_of_busy hb, State.remaining_of_busy (by simpa using hb), List.drop_eq_getElem_cons hk, stepsOf_cons,
    hw, if_pos rfl, State.actionStep_seq]
  dsimp only
  split <;> omega

theorem State.finishStep_remaining {s : State} (hr : s.seqReady = true) (hk : s.seq.k = s.seq.list.length) :
    s.finishStep.remaining + 1 = s.remaining := by
  obtain ⟨-, hb, hw⟩ := seqReady_iff.1 hr
  rw [State.remaining_of_busy hb, State.remaining_of_idle (by rw [State.finishStep_eq]), hw, hk, List.drop_length]
  rfl

theorem State.waitEnded_remaining {s : State} (hb : s.seq.busy = true) (hw : s.seq.wait ≠ .none) :
    (s.setSeq { s.seq with wait := .none }).remaining + 1 = s.remaining := by
  rw [State.remaining_of_busy hb, State.remaining_of_busy (by simpa using hb), if_neg hw]
  rfl

/-- No turn of HOST, ENV or CLOCK adds to what remains: a busy block accepts no command (file 40 R100). -/
theorem remaining_le_of_step {s t : State} (h : step s = .next t) (hb : s.seq.busy = true) (hr : t.rstN = true) :
    t.remaining ≤ s.remaining := by
  obtain ⟨-, v, u, ⟨hs, d, ag, rfl⟩, hu, rfl⟩ := step_cases h
  rw [State.edgeDetect_rstN] at hr
  rw [State.edgeDetect_remaining]
  generalize s.nextTurn = n at hu
  cases hu with
  | idle | fault | clock | env => exact (State.remaining_congr rfl).le
  | accept w i hrst hw hd hidle => exact absurd (hb.symm.trans hidle) nofun
  | action m hready hm => exact (Nat.le_succ _).trans_eq (State.actionStep_remaining hready hm)
  | finish hready hk => exact (Nat.le_succ _).trans_eq (State.finishStep_remaining hready hk)
  | waitOver _ hbusy hw => exact (Nat.le_succ _).trans_eq (State.waitEnded_remaining hbusy hw)
  | rst b =>
    cases b with
    | true => exact (State.remaining_congr rfl).le
    | false => cases hr

/-- With its index inside the list, a ready SEQ has a micro-step to perform or the finish. -/
theorem State.seqTurn_remaining {s : State} (hr : s.seqReady = true) (hk : s.seq.k ≤ s.seq.list.length) :
    s.seqTurn.remaining + 1 = s.remaining := by
  obtain hk | hk := hk.eq_or_lt
  · rw [seqTurn_of_finish hr hk, State.finishStep_remaining hr hk]
  · have hm := List.getElem?_eq_getElem hk
    rw [seqTurn_of_action hr hm, State.actionStep_remaining hr hm]

theorem State.endWait_remaining {s : State} (hr : s.rstN = true) (hb : s.seq.busy = true) (hw : s.seq.wait ≠ .none)
    (ho : s.waitOver = true) : s.endWait.remaining + 1 = s.remaining := by
  rw [endWait_of_waitOver hr hb ho, State.waitEnded_remaining hb hw]

theorem Accepted.remaining_eq {i : Instr} {s₀ s : State} (h : Accepted i s₀ s) :
    s.remaining = stepsOf (microSteps i) + 1 := by
  rw [h.eq_start]
  rfl

/-- Only a command with micro-steps of its own leaves SEQ busy (file 40 R101). -/
theorem Accepted.microSteps_ne_nil {i : Instr} {s₀ s : State} (h : Accepted i s₀ s) : microSteps i ≠ [] := by
  obtain ⟨-, rfl⟩ := h.eq_acceptance
  obtain ⟨hidle, -, hbusy⟩ := h
  cases i with
  | nop | read | take | edgeEn => exact absurd (hbusy.symm.trans hidle) nofun
  | cfgOut | cfgIn | set | latch | pullFrame | resetPulse => exact nofun

/-- Settles O55: by the invariant SEQ's index is inside its list, so a turn of SEQ that is ready is its action step or its
finish; at acceptance the command's whole list is ahead, and its finish. -/
theorem progress_is_monotone : Obligations.Progress_is_monotone := by
  refine ⟨fun s t hs h hb hrs hrt => ⟨remaining_le_of_step h hb hrt, fun hn hw => ?_, fun hn hw ho => ?_⟩,
    fun i s₀ s hacc => ?_⟩
  · obtain ⟨-, u, hu, rfl⟩ := step_next_iff.1 h
    rw [hn] at hu
    cases hu
    have hready : s.popTurn.seqReady = true := by simp [seqReady_iff, hrs, hb, hw]
    simpa using State.seqTurn_remaining hready (by simpa using hs.seqIndex hb)
  · obtain ⟨-, u, hu, rfl⟩ := step_next_iff.1 h
    rw [hn] at hu
    cases hu
    have hover : s.popTurn.waitOver = true := by simpa [State.waitOver] using ho
    simpa using State.endWait_remaining (s := s.popTurn) (by simpa) (by simpa) (by simpa) hover
  · rw [hacc.remaining_eq]
    have hne := hacc.microSteps_ne_nil
    cases i with
    | nop | read | take | edgeEn => exact absurd rfl hne
    | cfgOut | cfgIn | set | latch | pullFrame | resetPulse => rfl

end Sys2Proof.Machine
end
